-- ==== Sys2Proof/Word.lean ====
section
/-! DEFINITION. The word types of RADBF (00_scope.md R8): every value is unsigned. -/

namespace Sys2Proof

/-- A byte: a device register, a data value, an operand field A, B or C (R8, R71). -/
abbrev Byte := BitVec 8

/-- A 4-bit field: OPC or CAT (R8, R71). -/
abbrev Nibble := BitVec 4

/-- A 7-bit bus address (R8, R43). -/
abbrev BusAddress := BitVec 7

/-- The 32-bit command word (R8, R70). -/
abbrev Word := BitVec 32

end Sys2Proof
end

