-- ==== Sys2Proof/Syntax.lean ====
section
/-! DEFINITION. The commands of RADBF (30_encoding.md R73), one constructor per row of
spec/opcode_table.json, and the names of registers, halves and categories (00_scope.md R11, R13). -/

namespace Sys2Proof

/-- A command with its operands as the fields of its word hold them (R72): pins, ports, register
offsets, selectors and data are whole bytes, a category is 4 bits, and a Boolean operand is the
whole byte B, read as `bool(B)` by the command's meaning. -/
inductive Instr where
  /-- BEGIN `sel` (R191). -/
  | beginBus (sel : Byte)
  /-- RESOLVE `t, p` (R110). -/
  | resolve (t : Nibble) (p : Byte)
  /-- BITMASK `p` (R111). -/
  | bitmask (p : Byte)
  /-- INSERT `n, mask, value` (R125). -/
  | insert (n mask value : Byte)
  /-- EXTRACT `n, p` (R126). -/
  | extract (n p : Byte)
  /-- READ_REG `r` (R150). -/
  | readReg (r : Byte)
  /-- WRITE_REG `r, v` (R151). -/
  | writeReg (r v : Byte)
  /-- SET_BITS `r, mask, value` (R130). -/
  | setBits (r mask value : Byte)
  /-- PIN_MODE `p, isInput` (R161). -/
  | pinMode (p isInput : Byte)
  /-- PORT_MODE `q, byteMask` (R162). -/
  | portMode (q byteMask : Byte)
  /-- DIGITAL_WRITE `p, level` (R163). -/
  | digitalWrite (p level : Byte)
  /-- DIGITAL_READ `p` (R164). -/
  | digitalRead (p : Byte)
  /-- PORT_WRITE `q, v` (R165). -/
  | portWrite (q v : Byte)
  /-- PORT_READ `q` (R166). -/
  | portRead (q : Byte)
  /-- SET_POLARITY `p, enabled` (R168). -/
  | setPolarity (p enabled : Byte)
  /-- SET_INTERRUPT `p, enabled` (R169). -/
  | setInterrupt (p enabled : Byte)
  /-- SET_PULLUP `p, enabled` (R167). -/
  | setPullup (p enabled : Byte)
deriving DecidableEq, Repr

/-- The mnemonics of the opcode map (R73), in table order. -/
inductive Mnemonic where
  | BEGIN | RESOLVE | BITMASK | INSERT | EXTRACT | READ_REG | WRITE_REG | SET_BITS | PIN_MODE
  | PORT_MODE | DIGITAL_WRITE | DIGITAL_READ | PORT_WRITE | PORT_READ | SET_POLARITY
  | SET_INTERRUPT | SET_PULLUP
deriving DecidableEq, Repr

/-- The half of the chip a pin or port uses (R13): A or B. -/
inductive Half where
  | A | B
deriving DecidableEq, Repr

/-- The 21 defined device registers (20_memory.md R40), by their names (R11). -/
inductive DevReg where
  | IODIRA | IODIRB | IPOLA | IPOLB | GPINTENA | GPINTENB | DEFVALA | DEFVALB | INTCONA | INTCONB
  | IOCON | GPPUA | GPPUB | INTFA | INTFB | INTCAPA | INTCAPB | GPIOA | GPIOB | OLATA | OLATB
deriving DecidableEq, Repr

/-- The ten register pairs (20_memory.md R41), by the names the assembler uses (R77). -/
inductive Category where
  | IODIR | IPOL | GPINTEN | DEFVAL | INTCON | GPPU | INTF | INTCAP | GPIO | OLAT
deriving DecidableEq, Repr

end Sys2Proof
end

