-- ==== Sys2Proof/Decode.lean ====
section
/-! DEFINITION. The command word (30_encoding.md R71), its decoder (R74) and its encoder (R73). -/

namespace Sys2Proof

/-- `OPC`, bits 31:28 (R71). -/
def opcOf (w : Word) : Nibble := w.extractLsb' 28 4
/-- `CAT`, bits 27:24 (R71). -/
def catOf (w : Word) : Nibble := w.extractLsb' 24 4
/-- `A`, bits 23:16 (R71). -/
def aOf (w : Word) : Byte := w.extractLsb' 16 8
/-- `B`, bits 15:8 (R71). -/
def bOf (w : Word) : Byte := w.extractLsb' 8 8
/-- `C`, bits 7:0 (R71). -/
def cOf (w : Word) : Byte := w.extractLsb' 0 8

/-- `word = (OPC << 28) | (CAT << 24) | (A << 16) | (B << 8) | C` (R71). -/
def pack (opc cat : Nibble) (a b c : Byte) : Word :=
  (opc.setWidth 32 <<< 28) ||| (cat.setWidth 32 <<< 24) ||| (a.setWidth 32 <<< 16)
    ||| (b.setWidth 32 <<< 8) ||| c.setWidth 32

/-- One row of the match and mask table of R73: a word is the row's iff `(word & mask) = pattern`. -/
structure Row where
  mnemonic : Mnemonic
  pattern : Word
  mask : Word
deriving DecidableEq, Repr

/-- The match and mask table of R73, in table order. -/
def opcodeTable : List Row :=
  [ ⟨.BEGIN, 0x10000000#32, 0xFF00FFFF#32⟩,
    ⟨.RESOLVE, 0x20000000#32, 0xF000FFFF#32⟩,
    ⟨.BITMASK, 0x30000000#32, 0xFF00FFFF#32⟩,
    ⟨.INSERT, 0x40000000#32, 0xFF000000#32⟩,
    ⟨.EXTRACT, 0x50000000#32, 0xFF0000FF#32⟩,
    ⟨.READ_REG, 0x60000000#32, 0xFF00FFFF#32⟩,
    ⟨.WRITE_REG, 0x70000000#32, 0xFF0000FF#32⟩,
    ⟨.SET_BITS, 0x80000000#32, 0xFF000000#32⟩,
    ⟨.PIN_MODE, 0x90000000#32, 0xFF0000FF#32⟩,
    ⟨.PORT_MODE, 0xA0000000#32, 0xFF0000FF#32⟩,
    ⟨.DIGITAL_WRITE, 0xB0000000#32, 0xFF0000FF#32⟩,
    ⟨.DIGITAL_READ, 0xC0000000#32, 0xFF00FFFF#32⟩,
    ⟨.PORT_WRITE, 0xD0000000#32, 0xFF0000FF#32⟩,
    ⟨.PORT_READ, 0xE0000000#32, 0xFF00FFFF#32⟩,
    ⟨.SET_POLARITY, 0xF1000000#32, 0xFF0000FF#32⟩,
    ⟨.SET_INTERRUPT, 0xF2000000#32, 0xFF0000FF#32⟩,
    ⟨.SET_PULLUP, 0xF6000000#32, 0xFF0000FF#32⟩ ]

/-- A word is a row's iff `(word & mask) = match` (R73). -/
def Row.hits (r : Row) (w : Word) : Bool := w &&& r.mask == r.pattern

/-- The command of a row, its operands read from the word's fields (R73 columns A, B, C). -/
def commandOf (m : Mnemonic) (w : Word) : Instr :=
  match m with
  | .BEGIN => .beginBus (aOf w)
  | .RESOLVE => .resolve (catOf w) (aOf w)
  | .BITMASK => .bitmask (aOf w)
  | .INSERT => .insert (aOf w) (bOf w) (cOf w)
  | .EXTRACT => .extract (aOf w) (bOf w)
  | .READ_REG => .readReg (aOf w)
  | .WRITE_REG => .writeReg (aOf w) (bOf w)
  | .SET_BITS => .setBits (aOf w) (bOf w) (cOf w)
  | .PIN_MODE => .pinMode (aOf w) (bOf w)
  | .PORT_MODE => .portMode (aOf w) (bOf w)
  | .DIGITAL_WRITE => .digitalWrite (aOf w) (bOf w)
  | .DIGITAL_READ => .digitalRead (aOf w)
  | .PORT_WRITE => .portWrite (aOf w) (bOf w)
  | .PORT_READ => .portRead (aOf w)
  | .SET_POLARITY => .setPolarity (aOf w) (bOf w)
  | .SET_INTERRUPT => .setInterrupt (aOf w) (bOf w)
  | .SET_PULLUP => .setPullup (aOf w) (bOf w)

/-- Why a word is illegal (R74, R202). RADBF answers IllegalCommand whichever it is; the names and
their order are the model's (DESIGN CHOICE, log entry 16, safe). -/
inductive Illegal where
  /-- OPC = 0x0. -/
  | opcodeZero
  /-- OPC = 0xF with CAT not 1, 2 or 6. -/
  | subFunction
  /-- CAT must be 0 and is not. -/
  | catNotZero
  /-- B must be 0 and is not. -/
  | bNotZero
  /-- C must be 0 and is not. -/
  | cNotZero
  /-- Fewer than the four bytes of a command word (only for `decodeBytes`). -/
  | tooFewBytes
deriving DecidableEq, Repr

/-- The name of what is wrong with a word that matches no row (R74). -/
def illegalReason (w : Word) : Illegal :=
  if opcOf w = 0x0#4 then .opcodeZero
  else if opcOf w = 0xF#4 then
    (if catOf w = 1#4 ∨ catOf w = 2#4 ∨ catOf w = 6#4 then .cNotZero else .subFunction)
  else if catOf w ≠ 0#4 ∧ opcOf w ≠ 0x2#4 then .catNotZero
  else if bOf w ≠ 0#8 ∧ opcOf w ∈ [0x1#4, 0x2#4, 0x3#4, 0x6#4, 0xC#4, 0xE#4] then .bNotZero
  else .cNotZero

/-- What the decoder answers: a command, or IllegalCommand with its reason. -/
inductive Decoded where
  | command (i : Instr)
  | illegal (reason : Illegal)
deriving DecidableEq, Repr

/-- The decode function (R74): the first row in table order that the word matches, else
IllegalCommand. Total, no side effect. -/
def decode (w : Word) : Decoded :=
  match opcodeTable.find? (fun r => r.hits w) with
  | some r => .command (commandOf r.mnemonic w)
  | none => .illegal (illegalReason w)

/-- The command word of four bytes: bits 31:24 go first (92_eei_decisions.md D31). -/
def wordOfBytes (b0 b1 b2 b3 : Byte) : Word :=
  (b0.setWidth 32 <<< 24) ||| (b1.setWidth 32 <<< 16) ||| (b2.setWidth 32 <<< 8) ||| b3.setWidth 32

/-- The decoder over bytes (D31): the first command and the bytes after it. -/
def decodeBytes : List Byte → Decoded × List Byte
  | b0 :: b1 :: b2 :: b3 :: rest => (decode (wordOfBytes b0 b1 b2 b3), rest)
  | short => (.illegal .tooFewBytes, short)

/-- The encoder (R71, R73): the word of a command; every "zero" field is 0. -/
def encode : Instr → Word
  | .beginBus sel => pack 0x1#4 0#4 sel 0#8 0#8
  | .resolve t p => pack 0x2#4 t p 0#8 0#8
  | .bitmask p => pack 0x3#4 0#4 p 0#8 0#8
  | .insert n mask value => pack 0x4#4 0#4 n mask value
  | .extract n p => pack 0x5#4 0#4 n p 0#8
  | .readReg r => pack 0x6#4 0#4 r 0#8 0#8
  | .writeReg r v => pack 0x7#4 0#4 r v 0#8
  | .setBits r mask value => pack 0x8#4 0#4 r mask value
  | .pinMode p isInput => pack 0x9#4 0#4 p isInput 0#8
  | .portMode q byteMask => pack 0xA#4 0#4 q byteMask 0#8
  | .digitalWrite p level => pack 0xB#4 0#4 p level 0#8
  | .digitalRead p => pack 0xC#4 0#4 p 0#8 0#8
  | .portWrite q v => pack 0xD#4 0#4 q v 0#8
  | .portRead q => pack 0xE#4 0#4 q 0#8 0#8
  | .setPolarity p enabled => pack 0xF#4 1#4 p enabled 0#8
  | .setInterrupt p enabled => pack 0xF#4 2#4 p enabled 0#8
  | .setPullup p enabled => pack 0xF#4 6#4 p enabled 0#8

/-- The command word of a row's `nbits` bits `w`, every bit above them 0. The command port is 32 bits
in parallel and has no byte order (R44, D31). -/
def tableWord (nbits w : Nat) : Word := BitVec.ofNat 32 (w % 2 ^ nbits)

/-- The command the decoder reads from a row's bits, none where it refuses. -/
def decodeTableWord (nbits w : Nat) : Option Instr :=
  match decode (tableWord nbits w) with
  | .command i => some i
  | .illegal _ => none

end Sys2Proof
end

