-- ==== Sys2Proof/Config.lean ====
section
/-! DEFINITION. What is fixed for one RADBF (00_scope.md R7, 10_state.md R33), and the free values:
constants without a body, for what the spec leaves to the transport. -/

namespace Sys2Proof

/-- The parameter `DEVICE_MODEL` (R7): how the device register space answers (R48, R49). -/
inductive DeviceModel where
  /-- R48: a read returns any byte; a write records only its event. -/
  | oracle
  /-- R49: the simulator; the register space is a map that reads return and writes set. -/
  | memory
deriving DecidableEq, Repr

/-- The parameters a model takes as arguments (R7). They stand in `State.params`, which no step
changes (R33; DESIGN CHOICE, log entry 2, safe). -/
structure Params where
  /-- `PIN_CHECK` (R106). -/
  pinCheck : Bool
  /-- `DEVICE_MODEL` (R48, R49). -/
  deviceModel : DeviceModel
deriving DecidableEq, Repr

/-- The outcome of a read frame (20_memory.md R47). -/
inductive ReadOutcome where
  | byte (b : Byte)
  | timeout
deriving DecidableEq, Repr, Inhabited

namespace Config

/-- `BASE_ADDR` (R7): the fixed 7-bit base of the bus address. -/
def baseAddr : BusAddress := 0x20#7

/-- The last pin (R7, `PIN_COUNT` = 16; pins 0-15). -/
def lastPin : Byte := 15#8

/-- The default parameters (R7): `PIN_CHECK` = true, `DEVICE_MODEL` = Oracle. -/
def defaultParams : Params := { pinCheck := true, deviceModel := .oracle }

/-- `TIMEOUT` (R7, R142): OPEN. The model has no time: a read frame may end in Timeout whatever
this bound is (R47), so nothing reads it (DESIGN CHOICE, log entry 3, safe). -/
opaque timeout : Nat

/-- FREE VALUE: the count the transport accepts of a write frame (R46, I18), for the write frames
`State.acks` does not answer. Draw number `n` of these (DESIGN CHOICE, log entry 7, safe). -/
opaque freeAccept : Nat → Nat

/-- FREE VALUE: the outcome of a read frame (R47, R48, I2), for the read frames `State.replies` does
not answer. Draw number `n` of these (DESIGN CHOICE, log entry 7, safe). -/
opaque freeReply : Nat → ReadOutcome

end Config

end Sys2Proof
end

