-- ==== Sys2Proof/Machine/State.lean ====
section
/-! DEFINITION. The state of RADBF (10_state.md), of the agents around it, and the reasons a step
can stop. Plain data throughout. -/

namespace Sys2Proof.Machine

/-- The status codes of R201 by name; code 7 is reserved and never produced, so it has no name.
Their numbers are `Status.code` (Flags.lean). -/
inductive Status where
  | OK
  | InvalidPin
  | InvalidRegister
  | TransportWriteShortfall
  | TransportTimeout
  | NotInitialized
  | IllegalCommand
deriving DecidableEq, Repr

/-- A response (R27): STATUS and the byte RESULT. -/
structure Response where
  status : Status
  result : Byte
deriving DecidableEq, Repr

/-- `SEQ` (R25). The latch `N` of BUSY(cmd, step, N) is `State.latchN`, since it outlives BUSY as a
piece of state of its own (R34). -/
inductive Seq where
  /-- No command in progress. -/
  | idle
  /-- The command word in progress and the index of its next micro-operation. -/
  | busy (cmd : Word) (step : Nat)
deriving DecidableEq, Repr

/-- An event: what the outside sees of RADBF and of the other agents. The model records them since
a claim about a run speaks of the frames issued and of the responses (R48, R235; DESIGN CHOICE, log
entry 12, safe). -/
inductive Event where
  /-- TINIT: the transport's begin() (R191). -/
  | tinit
  /-- A write frame to a bus address, its bytes, and how many the transport accepted (R46). -/
  | writeFrame (addr : BusAddress) (bytes : List Byte) (accepted : Nat)
  /-- A read frame of one byte from a bus address, and its outcome (R47). -/
  | readFrame (addr : BusAddress) (outcome : ReadOutcome)
  /-- The interference agent wrote a device register (R55). -/
  | interference (r : DevReg) (v : Byte)
  /-- A response was delivered (R27). -/
  | response (status : Status) (result : Byte)
  /-- RADBF was reset (R230). -/
  | reset
deriving DecidableEq, Repr

/-- Who moves next, when it is not simply RADBF (R20, R55, R230). -/
inductive Turn where
  /-- RADBF's sequencer. -/
  | radbf
  /-- The interference agent writes any byte to any defined device register (R55). -/
  | interfere (r : DevReg) (v : Byte)
  /-- Reset is applied (R230). -/
  | reset
deriving DecidableEq, Repr

/-- The device register space `M` (R30, R49) as (offset, byte) pairs in canonical form: see
`Memory.wf` (Ops.lean). -/
abbrev Memory := List Host.Cell

/-- The machine and the agents around it. -/
@[ext]
structure State where
  /-- BUSADDR (R21): bit 7 is `VALID`, bits 6:0 are `ADDR`. -/
  busAddr : BitVec 8
  /-- SEQ (R25). -/
  seq : Seq
  /-- `N` (R25): the byte the command's register read returned. -/
  latchN : Byte
  /-- The response not yet taken by the host (R27, R34). -/
  response : Option Response
  /-- The device register space, used under `DEVICE_MODEL` = Memory only (R30, R48, R49). -/
  device : Memory
  /-- PIN_CHECK and DEVICE_MODEL (R7, R33). -/
  params : Params
  /-- The command words the host has yet to present, in its order (R20, R26). -/
  host : List Word
  /-- Who moves next, oldest first; RADBF when empty. The model's own. -/
  agenda : List Turn
  /-- The counts the transport answers the next write frames with (R46). The model's own. -/
  acks : List Nat
  /-- The outcomes the transport answers the next read frames with (R47). The model's own. -/
  replies : List ReadOutcome
  /-- How many write frames took a free value. The model's own. -/
  acceptDraws : Nat
  /-- How many read frames took a free value. The model's own. -/
  replyDraws : Nat
  /-- The events so far, oldest first. The model's own record (R235). -/
  trace : List Event
deriving DecidableEq, Repr

/-- Why the machine stops. RADBF itself never stops (60_exceptions.md R203): each of these is a
sequencer state the spec excludes, and `Safety.lean`'s invariant rules all of them out (log entry
11). -/
inductive Fault where
  /-- SEQ = BUSY(cmd, step) with `step` past the end of the command's micro-operation list (R25).
  Raised by `runMicro`. Safe: the model stops where the spec gives no micro-operation. -/
  | noMicroOp
  /-- A frame micro-operation while `BUSADDR.VALID` = 0: the address is never used then (R21).
  Raised by `runMicro`. Safe: the model stops where the spec has no frame. -/
  | noBusAddress
  /-- A frame micro-operation on an offset outside DEF, which is never placed in a frame (R42).
  Raised by `runMicro`. Safe: the model stops where the spec has no frame. -/
  | undefinedOffset
deriving DecidableEq, Repr

/-- Why an instruction is refused. -/
inductive Refusal where
  /-- `exec` has no meaning for the instruction yet. No arm raises it: every command is modelled. -/
  | notModelled (mnemonic : String)
deriving DecidableEq, Repr

/-- The reset state (R34, R230): VALID = 0, SEQ = IDLE, no response pending. ADDR and N, which the
spec leaves unspecified, are 0 (DESIGN CHOICE, log entries 4 and 5); no device register is listed
(DESIGN CHOICE, log entry 6); the parameters have their defaults (R7); the other agents have
nothing queued and nothing has been recorded (DESIGN CHOICE, log entries 7, 8, 9 and 12). -/
def State.reset : State :=
  { busAddr := 0x00#8
    seq := .idle
    latchN := 0x00#8
    response := none
    device := []
    params := Config.defaultParams
    host := []
    agenda := []
    acks := []
    replies := []
    acceptDraws := 0
    replyDraws := 0
    trace := [] }

end Sys2Proof.Machine
end

