-- ==== Sys2Proof/Machine/Flags.lean ====
section
/-! DEFINITION. RADBF has no flags or condition codes (10_state.md R24). What a command reports is a
status code (60_exceptions.md R201); this file holds its numbers. -/

namespace Sys2Proof.Machine

/-- The 3-bit code of a status (R201). Code 7 is never produced. -/
def Status.code : Status → BitVec 3
  | .OK => 0#3
  | .InvalidPin => 1#3
  | .InvalidRegister => 2#3
  | .TransportWriteShortfall => 3#3
  | .TransportTimeout => 4#3
  | .NotInitialized => 5#3
  | .IllegalCommand => 6#3

/-- The status of a 3-bit code, none for the reserved code 7 (R201). -/
def Status.ofCode (c : BitVec 3) : Option Status :=
  if c = 0#3 then some .OK
  else if c = 1#3 then some .InvalidPin
  else if c = 2#3 then some .InvalidRegister
  else if c = 3#3 then some .TransportWriteShortfall
  else if c = 4#3 then some .TransportTimeout
  else if c = 5#3 then some .NotInitialized
  else if c = 6#3 then some .IllegalCommand
  else none

end Sys2Proof.Machine
end

