-- ==== Sys2Proof/Machine/Operands.lean ====
section
/-! DEFINITION. Operand forms, the resolver (40_resolver.md), the bit-field functions
(41_bitfield_rmw.md) and the register map (20_memory.md), as functions of bytes alone. -/

namespace Sys2Proof.Machine

/-- `bool(b)` (R9, R72): a Boolean operand is true iff its byte is not 0x00. -/
def boolOf (b : Byte) : Bool := b != 0x00#8

/-- `b2byte(t)` (R9): a Boolean result as a byte. -/
def b2byte (t : Bool) : Byte := if t then 0x01#8 else 0x00#8

/-- The bit of a half in a register offset (R41): A = 0, B = 1. -/
def halfBit : Half → Byte
  | .A => 0#8
  | .B => 1#8

/-- `half(p)` (R100): the `p < 8` test, which governs for every pin byte (90_conflicts.md C2). -/
def half (p : Byte) : Half := if p < 8#8 then .A else .B

/-- `bitpos(p)` (R101). -/
def bitpos (p : Byte) : Nat := p.toNat % 8

/-- `bitMask(p)` (R101): `1 << (p % 8)`. -/
def bitMask (p : Byte) : Byte := 1#8 <<< bitpos p

/-- `resolvePin(p, t)` (R102): `(t << 1) | half(p)`. -/
def resolvePin (p : Byte) (t : Nibble) : Byte := (t.setWidth 8 <<< 1) ||| halfBit (half p)

/-- Type index of the direction registers (R103). -/
def catDirection : Nibble := 0#4
/-- Type index of the polarity registers (R103). -/
def catPolarity : Nibble := 1#4
/-- Type index of the interrupt-enable registers (R103). -/
def catInterrupt : Nibble := 2#4
/-- Type index of the pull-up registers (R103). -/
def catPullup : Nibble := 6#4
/-- Type index of the GPIO level registers (R103). -/
def catGpio : Nibble := 9#4

/-- `PAIRED` (R107): the type indices that name a register pair. -/
def paired (t : Nibble) : Bool := [0#4, 1#4, 2#4, 3#4, 4#4, 6#4, 7#4, 8#4, 9#4, 10#4].contains t

/-- `PORT_A` (R104): the offset of GPIOA. -/
def portA : Byte := 0x12#8

/-- `PORT_B` (R104): the offset of GPIOB. -/
def portB : Byte := 0x13#8

/-- `validPort(q)` (R104). -/
def validPort (q : Byte) : Bool := q == portA || q == portB

/-- `portHalf(q)` (R104), used for a valid port. -/
def portHalf (q : Byte) : Half := if q = portA then .A else .B

/-- `resolvePort(q, GPIO)` (R105): the port identifier itself. -/
def resolvePortGpio (q : Byte) : Byte := q

/-- `resolvePort(q, direction)` (R105): `(0 << 1) | portHalf(q)`. -/
def resolvePortDirection (q : Byte) : Byte :=
  (catDirection.setWidth 8 <<< 1) ||| halfBit (portHalf q)

/-- The pin test of `checkPin` (R106) under `PIN_CHECK`: a pin is 0..15 (R7). -/
def validPin (p : Byte) : Bool := p ≤ Config.lastPin

/-- `DEF` (R42) as a set of offsets: 0x00..0x0A and 0x0C..0x15. -/
def definedOffset (a : Nat) : Bool := a ≤ 0x0A || (0x0C ≤ a && a ≤ 0x15)

/-- `r ∈ DEF` (R42, R147). -/
def inDef (r : Byte) : Bool := definedOffset r.toNat

/-- The inserter (R120): `(n & ~mask) | (value & mask)`. -/
def insertBits (n mask value : Byte) : Byte := (n &&& ~~~mask) ||| (value &&& mask)

/-- The extractor (R121): `(n & bitMask(p)) != 0`. -/
def extractBit (n p : Byte) : Bool := (n &&& bitMask p) != 0x00#8

/-- The value a per-pin command composes with (R160): all ones to set, all zeros to clear. -/
def enableByte (en : Bool) : Byte := if en then 0xFF#8 else 0x00#8

/-- `busAddress(sel)` (R190): `BASE_ADDR | (sel & 0x07)`, 7 bits. -/
def busAddress (sel : Byte) : BusAddress := Config.baseAddr ||| (sel &&& 0x07#8).setWidth 7

/-- The offset of a named device register (R40). -/
def devRegOffset : DevReg → Byte
  | .IODIRA => 0x00#8
  | .IODIRB => 0x01#8
  | .IPOLA => 0x02#8
  | .IPOLB => 0x03#8
  | .GPINTENA => 0x04#8
  | .GPINTENB => 0x05#8
  | .DEFVALA => 0x06#8
  | .DEFVALB => 0x07#8
  | .INTCONA => 0x08#8
  | .INTCONB => 0x09#8
  | .IOCON => 0x0A#8
  | .GPPUA => 0x0C#8
  | .GPPUB => 0x0D#8
  | .INTFA => 0x0E#8
  | .INTFB => 0x0F#8
  | .INTCAPA => 0x10#8
  | .INTCAPB => 0x11#8
  | .GPIOA => 0x12#8
  | .GPIOB => 0x13#8
  | .OLATA => 0x14#8
  | .OLATB => 0x15#8

/-- The pair type index of a named device register (R40; IOCON alone has the unpaired index 5). -/
def devRegType : DevReg → Nibble
  | .IODIRA | .IODIRB => 0#4
  | .IPOLA | .IPOLB => 1#4
  | .GPINTENA | .GPINTENB => 2#4
  | .DEFVALA | .DEFVALB => 3#4
  | .INTCONA | .INTCONB => 4#4
  | .IOCON => 5#4
  | .GPPUA | .GPPUB => 6#4
  | .INTFA | .INTFB => 7#4
  | .INTCAPA | .INTCAPB => 8#4
  | .GPIOA | .GPIOB => 9#4
  | .OLATA | .OLATB => 10#4

/-- The half of a named device register (R40), none for IOCON. -/
def devRegHalf : DevReg → Option Half
  | .IODIRA | .IPOLA | .GPINTENA | .DEFVALA | .INTCONA | .GPPUA | .INTFA | .INTCAPA | .GPIOA
  | .OLATA => some .A
  | .IODIRB | .IPOLB | .GPINTENB | .DEFVALB | .INTCONB | .GPPUB | .INTFB | .INTCAPB | .GPIOB
  | .OLATB => some .B
  | .IOCON => none

/-- The type index of a named category (R77, R103). -/
def categoryIndex : Category → Nibble
  | .IODIR => 0#4
  | .IPOL => 1#4
  | .GPINTEN => 2#4
  | .DEFVAL => 3#4
  | .INTCON => 4#4
  | .GPPU => 6#4
  | .INTF => 7#4
  | .INTCAP => 8#4
  | .GPIO => 9#4
  | .OLAT => 10#4

end Sys2Proof.Machine
end

