-- ==== Sys2Proof/Machine/Ops.lean ====
section
/-! DEFINITION. The shared operations: BUSADDR's fields, the device register space, bus frames,
responses and errors, operand checks, micro-operations, and running a command. -/

namespace Sys2Proof.Machine

/-- What a meaning answers. -/
abbrev Result := Host.Outcome State Fault Refusal

/-! ## BUSADDR (R21) -/

/-- `BUSADDR.VALID`, bit 7. -/
def State.valid (s : State) : Bool := s.busAddr.getLsbD 7

/-- `BUSADDR.ADDR`, bits 6:0. -/
def State.addr (s : State) : BusAddress := s.busAddr.extractLsb' 0 7

/-- The contents of BUSADDR with `VALID` = 1 and the given `ADDR`. -/
def validBusAddr (a : BusAddress) : BitVec 8 := 0x80#8 ||| a.setWidth 8

/-- BUSADDR.ADDR <- a and BUSADDR.VALID <- 1 (R191). -/
def State.setBusAddr (s : State) (a : BusAddress) : State := { s with busAddr := validBusAddr a }

/-! ## The device register space under `DEVICE_MODEL` = Memory (R49) -/

/-- What a register that is not listed reads as (DESIGN CHOICE, log entry 6, a false claim about the
chip's contents at launch could be proved from it). -/
def Memory.unlisted : Byte := 0x00#8

/-- `M[r]`. -/
def Memory.read : Memory → Nat → Byte
  | [], _ => Memory.unlisted
  | (b, x) :: m, a => if b = a then x else Memory.read m a

/-- Put a listed value in front, unless it is what an unlisted register reads as. -/
def Memory.consCell (a : Nat) (v : Byte) (m : Memory) : Memory :=
  if v = Memory.unlisted then m else (a, v) :: m

/-- `M[r] <- v`, keeping the canonical form. -/
def Memory.write : Memory → Nat → Byte → Memory
  | [], a, v => Memory.consCell a v []
  | (b, x) :: m, a, v =>
    if a < b then Memory.consCell a v ((b, x) :: m)
    else if a = b then Memory.consCell a v m
    else (b, x) :: Memory.write m a v

/-- The canonical form: offsets strictly rising and defined (R42), no entry equal to what an unlisted
register reads as. -/
def Memory.wf : Memory → Bool
  | [] => true
  | (a, v) :: m => definedOffset a && v != Memory.unlisted && m.all (fun c => a < c.1) && Memory.wf m

/-- `M[r] <- v` under Memory; nothing under Oracle (R48, R49; DEDUCED, log entry 21). -/
def State.deviceSet (s : State) (r v : Byte) : State :=
  match s.params.deviceModel with
  | .oracle => s
  | .memory => { s with device := s.device.write r.toNat v }

/-! ## Events -/

/-- Record an event. -/
def State.record (s : State) (e : Event) : State := { s with trace := s.trace ++ [e] }

/-! ## Responses and errors (R27, R200) -/

/-- Deliver a response: the command ends and SEQ <- IDLE (R27). -/
def State.deliver (s : State) (st : Status) (v : Byte) : State :=
  { s.record (.response st v) with seq := .idle, response := some ⟨st, v⟩ }

/-- `respond(v)` (R10): the command ends with status OK and RESULT = v. -/
def State.respond (s : State) (v : Byte) : State := s.deliver .OK v

/-- `raise E` (R10, R27, R200): the command ends now with status E and RESULT = 0x00; nothing is
saved, vectored or masked (R207), and the next command is accepted (R208). This is the whole of
RADBF's error entry; there is no return from it. -/
def State.raise (s : State) (e : Status) : State := s.deliver e 0x00#8

/-! ## The sequencer (R25, R26) -/

/-- Accept a command word (R26): SEQ <- BUSY(cmd, 0, N); the host has taken the last response
(log entry 13). -/
def State.accept (s : State) (cmd : Word) : State := { s with seq := .busy cmd 0, response := none }

/-- The command goes on to its next micro-operation. -/
def State.advance (s : State) : State :=
  match s.seq with
  | .idle => s
  | .busy cmd k => { s with seq := .busy cmd (k + 1) }

/-! ## Bus frames (R46, R47) -/

/-- The accepted count the transport gives the next write frame of `len` bytes: a draw in 0..len
(R46). The queued answer if there is one, else a free value (log entry 7). -/
def State.nextAccept (s : State) (len : Nat) : Nat :=
  match s.acks with
  | k :: _ => min k len
  | [] => min (Config.freeAccept s.acceptDraws) len

/-- The draw of a write frame is used up. -/
def State.takeAccept (s : State) : State :=
  match s.acks with
  | _ :: rest => { s with acks := rest }
  | [] => { s with acceptDraws := s.acceptDraws + 1 }

/-- The draw of the next read frame (R47): the queued answer if there is one, else a free value
(log entry 7). -/
def State.nextReply (s : State) : ReadOutcome :=
  match s.replies with
  | o :: _ => o
  | [] => Config.freeReply s.replyDraws

/-- The draw of a read frame is used up. -/
def State.takeReply (s : State) : State :=
  match s.replies with
  | _ :: rest => { s with replies := rest }
  | [] => { s with replyDraws := s.replyDraws + 1 }

/-- The outcome of a read frame after the address frame `{r}`: under Oracle the draw itself (R48);
under Memory a drawn Timeout is Timeout and any drawn byte is `M[r]` (R49). -/
def State.readOutcome (s : State) (r : Byte) : ReadOutcome :=
  match s.nextReply, s.params.deviceModel with
  | .timeout, _ => .timeout
  | .byte b, .oracle => .byte b
  | .byte _, .memory => .byte (s.device.read r.toNat)

/-- `BusWrite(ADDR, {r})` (R46): the state after the address frame. It changes no register (R49). -/
def State.addressFrame (s : State) (r : Byte) : State :=
  s.takeAccept.record (.writeFrame s.addr [r] (s.nextAccept 1))

/-- `BusWrite(ADDR, {r, v})` (R44, R46): the state after the register-write frame; the device takes
the value iff both bytes were accepted (R49, D21). -/
def State.valueFrame (s : State) (r v : Byte) : State :=
  let s' := s.takeAccept.record (.writeFrame s.addr [r, v] (s.nextAccept 2))
  if s.nextAccept 2 = 2 then s'.deviceSet r v else s'

/-- `BusRead(ADDR, 1)` (R47): the state after the read frame that follows the address frame `{r}`. -/
def State.readFrame (s : State) (r : Byte) : State :=
  s.takeReply.record (.readFrame s.addr (s.readOutcome r))

/-! ## Operand and state checks (R104, R106, R107, R147, R148): the error, or none -/

/-- `checkCat(t)` (R107). -/
def checkCat (t : Nibble) : Option Status := if paired t then none else some .InvalidRegister

/-- `checkPin(p)` (R106). -/
def checkPin (s : State) (p : Byte) : Option Status :=
  if s.params.pinCheck && !validPin p then some .InvalidPin else none

/-- `checkPort(q)` (R104). -/
def checkPort (q : Byte) : Option Status := if validPort q then none else some .InvalidRegister

/-- `checkReg(r)` (R147). -/
def checkReg (r : Byte) : Option Status := if inDef r then none else some .InvalidRegister

/-- `checkInit()` (R148). -/
def checkInit (s : State) : Option Status := if s.valid then none else some .NotInitialized

/-- Two checks in order: the first error raised (R206). -/
def andThen (first second : Option Status) : Option Status :=
  match first with
  | some e => some e
  | none => second

/-! ## Micro-operations (R25) -/

/-- A micro-operation. -/
inductive MicroOp where
  /-- `W1(r)` = `BusWrite(ADDR, {r})`. -/
  | w1 (r : Byte)
  /-- `RD` = `BusRead(ADDR, 1)`. `r` is the offset of the address frame just before it (R49); the
  frame does not carry it. -/
  | rd (r : Byte)
  /-- `W2(r, v)` = `BusWrite(ADDR, {r, v})`. -/
  | w2 (r v : Byte)
  /-- `TINIT` = the transport's begin(). -/
  | tinit
  /-- `FIN` with RESULT = v. -/
  | fin (v : Byte)
  /-- BEGIN's `FIN`: writes BUSADDR, then responds 0x00 (R191; DEDUCED, log entry 10). -/
  | finBegin (a : BusAddress)
deriving DecidableEq, Repr

/-- What a micro-operation does. A frame that fails ends the command (R140, R143); `RD` latches the
byte in `N` (R140). -/
def microStep (op : MicroOp) (s : State) : State :=
  match op with
  | .w1 r =>
    if s.nextAccept 1 < 1 then (s.addressFrame r).raise .TransportWriteShortfall
    else (s.addressFrame r).advance
  | .rd r =>
    match s.readOutcome r with
    | .timeout => (s.readFrame r).raise .TransportTimeout
    | .byte b => State.advance { s.readFrame r with latchN := b }
  | .w2 r v =>
    if s.nextAccept 2 < 2 then (s.valueFrame r v).raise .TransportWriteShortfall
    else (s.valueFrame r v).advance
  | .tinit => (s.record .tinit).advance
  | .fin v => s.respond v
  | .finBegin a => (s.setBusAddr a).respond 0x00#8

/-- The offset a frame micro-operation is about. -/
def MicroOp.offset? : MicroOp → Option Byte
  | .w1 r => some r
  | .rd r => some r
  | .w2 r _ => some r
  | .tinit => none
  | .fin _ => none
  | .finBegin _ => none

/-- The reason a frame cannot be issued: no address (R21), or an undefined offset (R42). The checks
of every command (R147, R148) come before its frames, so no run reaches it (log entry 11). -/
def frameFault (op : MicroOp) (s : State) : Option Fault :=
  match op.offset? with
  | none => none
  | some r =>
    if !s.valid then some .noBusAddress
    else if !inDef r then some .undefinedOffset
    else none

/-- Perform micro-operation `k` of a command's list. -/
def runMicro (ops : List MicroOp) (k : Nat) (s : State) : Result :=
  match ops[k]? with
  | none => .fault .noMicroOp
  | some op =>
    match frameFault op s with
    | some f => .fault f
    | none => .next (microStep op s)

/-- Start a command: its checks, all before any frame (R206) and made once (DEDUCED, log entry 15), then
its first micro-operation. -/
def startCommand (check : Option Status) (ops : List MicroOp) (s : State) : Result :=
  match check with
  | some e => .next (s.raise e)
  | none => runMicro ops 0 s

/-- One step of a command: accept it if SEQ = IDLE (R26) and start it, or perform the micro-operation
SEQ names (R25). `check` is the first failing check, `ops` the command's micro-operation list. Accepting
is no step of its own (DEDUCED, log entry 1); `cmd` is the encoder's word (log entry 19). -/
def runCommand (cmd : Word) (check : Option Status) (ops : List MicroOp) (s : State) : Result :=
  match s.seq with
  | .idle => startCommand check ops (s.accept cmd)
  | .busy _ 0 => startCommand check ops s
  | .busy _ (k + 1) => runMicro ops (k + 1) s

/-! ## Register access (R140, R143) and the read-modify-write body (R130) -/

/-- `MemRead(r, 1)` (R140): W1, RD. -/
def memRead (r : Byte) : List MicroOp := [.w1 r, .rd r]

/-- `MemWrite(r, 1, v)` (R143): W2. -/
def memWrite (r v : Byte) : List MicroOp := [.w2 r v]

/-- `rmw(r, mask, value)` (R130): the read, then the write of the composed value; `n` is `N`. -/
def rmw (r mask value n : Byte) : List MicroOp := memRead r ++ memWrite r (insertBits n mask value)

/-- The checks of a per-pin command that issues frames (R160). -/
def pinChecks (s : State) (p : Byte) : Option Status := andThen (checkPin s p) (checkInit s)

/-- The checks of a port command (R162, R165, R166). -/
def portChecks (s : State) (q : Byte) : Option Status := andThen (checkPort q) (checkInit s)

/-- The checks of a register command (R130, R150, R151). -/
def regChecks (s : State) (r : Byte) : Option Status := andThen (checkReg r) (checkInit s)

/-- `pinSet(p, t, en)` (R160): the common template of the per-pin feature commands. -/
def pinSet (cmd : Word) (p : Byte) (t : Nibble) (en : Bool) (s : State) : Result :=
  runCommand cmd (pinChecks s p)
    (rmw (resolvePin p t) (bitMask p) (enableByte en) s.latchN ++ [.fin 0x00#8]) s

end Sys2Proof.Machine
end

