-- ==== Sys2Proof/Machine/BitField.lean ====
section
/-! DEFINITION. INSERT, EXTRACT and SET_BITS (41_bitfield_rmw.md). -/

namespace Sys2Proof.Machine

/-- INSERT `n, mask, value` (R125): FIN only, no check. -/
def execInsert (n mask value : Byte) (s : State) : Result :=
  runCommand (encode (.insert n mask value)) none [.fin (insertBits n mask value)] s

/-- EXTRACT `n, p` (R126): FIN only. -/
def execExtract (n p : Byte) (s : State) : Result :=
  runCommand (encode (.extract n p)) (checkPin s p) [.fin (b2byte (extractBit n p))] s

/-- SET_BITS `r, mask, value` (R130): W1, RD, W2, FIN; reads for every mask (90_conflicts.md C5). -/
def execSetBits (r mask value : Byte) (s : State) : Result :=
  runCommand (encode (.setBits r mask value)) (regChecks s r)
    (rmw r mask value s.latchN ++ [.fin 0x00#8]) s

end Sys2Proof.Machine
end

