-- ==== Sys2Proof/Machine/PinPort.lean ====
section
/-! DEFINITION. The nine pin and port operations (43_pin_port_api.md). -/

namespace Sys2Proof.Machine

/-- PIN_MODE `p, isInput` (R161): `pinSet` on the direction registers. -/
def execPinMode (p isInput : Byte) (s : State) : Result :=
  pinSet (encode (.pinMode p isInput)) p catDirection (boolOf isInput) s

/-- PORT_MODE `q, byteMask` (R162): W2, FIN on the port's direction register. -/
def execPortMode (q byteMask : Byte) (s : State) : Result :=
  runCommand (encode (.portMode q byteMask)) (portChecks s q)
    (memWrite (resolvePortDirection q) byteMask ++ [.fin 0x00#8]) s

/-- DIGITAL_WRITE `p, level` (R163): `pinSet` on the GPIO registers. -/
def execDigitalWrite (p level : Byte) (s : State) : Result :=
  pinSet (encode (.digitalWrite p level)) p catGpio (boolOf level) s

/-- DIGITAL_READ `p` (R164): W1, RD, FIN; RESULT is the pin's bit of the byte read. -/
def execDigitalRead (p : Byte) (s : State) : Result :=
  runCommand (encode (.digitalRead p)) (pinChecks s p)
    (memRead (resolvePin p catGpio) ++ [.fin (b2byte (extractBit s.latchN p))]) s

/-- PORT_WRITE `q, v` (R165): W2, FIN on the port's GPIO register. -/
def execPortWrite (q v : Byte) (s : State) : Result :=
  runCommand (encode (.portWrite q v)) (portChecks s q)
    (memWrite (resolvePortGpio q) v ++ [.fin 0x00#8]) s

/-- PORT_READ `q` (R166): W1, RD, FIN; RESULT is the byte read. -/
def execPortRead (q : Byte) (s : State) : Result :=
  runCommand (encode (.portRead q)) (portChecks s q)
    (memRead (resolvePortGpio q) ++ [.fin s.latchN]) s

/-- SET_PULLUP `p, enabled` (R167): `pinSet` on the pull-up registers. -/
def execSetPullup (p enabled : Byte) (s : State) : Result :=
  pinSet (encode (.setPullup p enabled)) p catPullup (boolOf enabled) s

/-- SET_POLARITY `p, enabled` (R168): `pinSet` on the polarity registers. -/
def execSetPolarity (p enabled : Byte) (s : State) : Result :=
  pinSet (encode (.setPolarity p enabled)) p catPolarity (boolOf enabled) s

/-- SET_INTERRUPT `p, enabled` (R169): `pinSet` on the interrupt-enable registers. -/
def execSetInterrupt (p enabled : Byte) (s : State) : Result :=
  pinSet (encode (.setInterrupt p enabled)) p catInterrupt (boolOf enabled) s

end Sys2Proof.Machine
end

