-- ==== Sys2Proof/Machine/RegisterAccess.lean ====
section
/-! DEFINITION. READ_REG and WRITE_REG (42_register_access.md). -/

namespace Sys2Proof.Machine

/-- READ_REG `r` (R150): W1, RD, FIN; RESULT is the byte read. -/
def execReadReg (r : Byte) (s : State) : Result :=
  runCommand (encode (.readReg r)) (regChecks s r) (memRead r ++ [.fin s.latchN]) s

/-- WRITE_REG `r, v` (R151): W2, FIN. -/
def execWriteReg (r v : Byte) (s : State) : Result :=
  runCommand (encode (.writeReg r v)) (regChecks s r) (memWrite r v ++ [.fin 0x00#8]) s

end Sys2Proof.Machine
end

