-- ==== Sys2Proof/Machine/Resolver.lean ====
section
/-! DEFINITION. The resolver commands (40_resolver.md section 2) and BEGIN (44_device_init.md). -/

namespace Sys2Proof.Machine

/-- BEGIN `sel` (R191): TINIT, FIN. -/
def execBegin (sel : Byte) (s : State) : Result :=
  runCommand (encode (.beginBus sel)) none [.tinit, .finBegin (busAddress sel)] s

/-- RESOLVE `t, p` (R110): FIN only; the category is checked before the pin (R206). -/
def execResolve (t : Nibble) (p : Byte) (s : State) : Result :=
  runCommand (encode (.resolve t p)) (andThen (checkCat t) (checkPin s p)) [.fin (resolvePin p t)] s

/-- BITMASK `p` (R111): FIN only. -/
def execBitmask (p : Byte) (s : State) : Result :=
  runCommand (encode (.bitmask p)) (checkPin s p) [.fin (bitMask p)] s

end Sys2Proof.Machine
end

