-- ==== Sys2Proof/Machine/Dispatch.lean ====
section
/-! DEFINITION. One arm per command: one step of it (accepting it first where SEQ = IDLE). -/

namespace Sys2Proof.Machine

def exec (i : Instr) (s : State) : Host.Outcome State Fault Refusal :=
  match i with
  | .beginBus sel => Sys2Proof.Machine.execBegin sel s
  | .resolve t p => Sys2Proof.Machine.execResolve t p s
  | .bitmask p => Sys2Proof.Machine.execBitmask p s
  | .insert n mask value => Sys2Proof.Machine.execInsert n mask value s
  | .extract n p => Sys2Proof.Machine.execExtract n p s
  | .readReg r => Sys2Proof.Machine.execReadReg r s
  | .writeReg r v => Sys2Proof.Machine.execWriteReg r v s
  | .setBits r mask value => Sys2Proof.Machine.execSetBits r mask value s
  | .pinMode p isInput => Sys2Proof.Machine.execPinMode p isInput s
  | .portMode q byteMask => Sys2Proof.Machine.execPortMode q byteMask s
  | .digitalWrite p level => Sys2Proof.Machine.execDigitalWrite p level s
  | .digitalRead p => Sys2Proof.Machine.execDigitalRead p s
  | .portWrite q v => Sys2Proof.Machine.execPortWrite q v s
  | .portRead q => Sys2Proof.Machine.execPortRead q s
  | .setPolarity p enabled => Sys2Proof.Machine.execSetPolarity p enabled s
  | .setInterrupt p enabled => Sys2Proof.Machine.execSetInterrupt p enabled s
  | .setPullup p enabled => Sys2Proof.Machine.execSetPullup p enabled s

end Sys2Proof.Machine
end

