-- ==== Sys2Proof/Machine/Environment.lean ====
section
/-! DEFINITION. The moves of the agents around RADBF: the interference agent (20_memory.md R55) and
reset (70_reset_and_hazards.md R230). -/

namespace Sys2Proof.Machine

/-- The commands with a register read: those that can report TransportTimeout (R202). -/
def readsRegister : Instr → Bool
  | .beginBus _ => false
  | .resolve _ _ => false
  | .bitmask _ => false
  | .insert _ _ _ => false
  | .extract _ _ => false
  | .readReg _ => true
  | .writeReg _ _ => false
  | .setBits _ _ _ => true
  | .pinMode _ _ => true
  | .portMode _ _ => false
  | .digitalWrite _ _ => true
  | .digitalRead _ => true
  | .portWrite _ _ => false
  | .portRead _ => true
  | .setPolarity _ _ => true
  | .setInterrupt _ _ => true
  | .setPullup _ _ => true

/-- SEQ stands between the address frame and the read frame of one `MemRead`. -/
def State.insideRegisterRead (s : State) : Bool :=
  match s.seq with
  | .idle => false
  | .busy cmd k =>
    match decode cmd with
    | .command i => readsRegister i && k == 1
    | .illegal _ => false

/-- An interference write (R55): under Memory it sets `M[r]` (R49). -/
def State.interfere (s : State) (r : DevReg) (v : Byte) : State :=
  (s.record (.interference r v)).deviceSet (devRegOffset r) v

/-- Reset (R230): RADBF's state as R34 has it, the command in progress abandoned without a response.
The device registers, the transport and the host's remaining commands are not touched (log entry 14). -/
def State.applyReset (s : State) : State :=
  { s.record .reset with
    busAddr := State.reset.busAddr
    seq := State.reset.seq
    latchN := State.reset.latchN
    response := State.reset.response }

end Sys2Proof.Machine
end

