-- ==== Sys2Proof/Machine/Sequencer.lean ====
section
/-! DEFINITION. Taking a command from the host (10_state.md R26), going on with the one in progress
(R25), and the turn of the agent that moves next. -/

namespace Sys2Proof.Machine

/-- The host's next command leaves its list. -/
def State.takeCommand (s : State) : State := { s with host := s.host.tail }

/-- RADBF's turn. IDLE with no command: it waits (R231, R226). IDLE with a command: it accepts and
starts it (R26). BUSY: it goes on with it (R25). A word that matches no row answers IllegalCommand
(R75, R202), also in a BUSY state, which no run reaches (log entry 19). -/
def sequencerTurn (s : State) : Result :=
  match s.seq with
  | .idle =>
    match s.host with
    | [] => .next s
    | w :: _ =>
      match decode w with
      | .command i => exec i s.takeCommand
      | .illegal _ => .next ((s.takeCommand.accept w).raise .IllegalCommand)
  | .busy w _ =>
    match decode w with
    | .command i => exec i s
    | .illegal _ => .next (s.raise .IllegalCommand)

/-- The turn of the agent the agenda names; RADBF's when the agenda is empty. An interference write
does not fall inside a register read (R55): there RADBF moves and the write waits for the next
interference point (log entry 8). -/
def nextTurn (s : State) : Result :=
  match s.agenda with
  | [] => sequencerTurn s
  | .radbf :: rest => sequencerTurn { s with agenda := rest }
  | .reset :: rest => .next (State.applyReset { s with agenda := rest })
  | .interfere r v :: rest =>
    if s.insideRegisterRead then sequencerTurn s
    else .next (State.interfere { s with agenda := rest } r v)

/-- The word stands as the host's next command, SEQ = IDLE, and RADBF moves next. -/
def State.presentFirst (s : State) (w : Word) : State :=
  { s with seq := .idle, host := w :: s.host, agenda := .radbf :: s.agenda }

end Sys2Proof.Machine
end

