-- ==== Sys2Proof/Machine/Step.lean ====
section
/-! DEFINITION. One step (10_state.md R20): one micro-operation of RADBF, or one move of another
agent. -/

namespace Sys2Proof.Machine

def step (s : State) : Host.Outcome State Fault Refusal := nextTurn s

/-- `s` with the command word presented, so that the next step accepts and starts exactly it (log
entry 9). -/
def State.withFetchWord (s : State) (nbits w : Nat) : State := s.presentFirst (tableWord nbits w)

end Sys2Proof.Machine
end

