-- ==== Sys2Proof/Machine/Assembler.lean ====
section
/-! DEFINITION. The assembler syntax (30_encoding.md R77): one line of text to a command. It is no
part of a step. How blanks and an ill-spelt line are treated is the model's (log entry 18). -/

namespace Sys2Proof.Machine

/-- The spelling of a mnemonic (R73). -/
def mnemonicText : Mnemonic → String
  | .BEGIN => "BEGIN"
  | .RESOLVE => "RESOLVE"
  | .BITMASK => "BITMASK"
  | .INSERT => "INSERT"
  | .EXTRACT => "EXTRACT"
  | .READ_REG => "READ_REG"
  | .WRITE_REG => "WRITE_REG"
  | .SET_BITS => "SET_BITS"
  | .PIN_MODE => "PIN_MODE"
  | .PORT_MODE => "PORT_MODE"
  | .DIGITAL_WRITE => "DIGITAL_WRITE"
  | .DIGITAL_READ => "DIGITAL_READ"
  | .PORT_WRITE => "PORT_WRITE"
  | .PORT_READ => "PORT_READ"
  | .SET_POLARITY => "SET_POLARITY"
  | .SET_INTERRUPT => "SET_INTERRUPT"
  | .SET_PULLUP => "SET_PULLUP"

/-- The register names (R11) and their offsets. -/
def registerNames : List (String × Byte) :=
  [ ("IODIRA", devRegOffset .IODIRA), ("IODIRB", devRegOffset .IODIRB),
    ("IPOLA", devRegOffset .IPOLA), ("IPOLB", devRegOffset .IPOLB),
    ("GPINTENA", devRegOffset .GPINTENA), ("GPINTENB", devRegOffset .GPINTENB),
    ("DEFVALA", devRegOffset .DEFVALA), ("DEFVALB", devRegOffset .DEFVALB),
    ("INTCONA", devRegOffset .INTCONA), ("INTCONB", devRegOffset .INTCONB),
    ("IOCON", devRegOffset .IOCON), ("GPPUA", devRegOffset .GPPUA),
    ("GPPUB", devRegOffset .GPPUB), ("INTFA", devRegOffset .INTFA),
    ("INTFB", devRegOffset .INTFB), ("INTCAPA", devRegOffset .INTCAPA),
    ("INTCAPB", devRegOffset .INTCAPB), ("GPIOA", devRegOffset .GPIOA),
    ("GPIOB", devRegOffset .GPIOB), ("OLATA", devRegOffset .OLATA),
    ("OLATB", devRegOffset .OLATB) ]

/-- The port names (R77). -/
def portNames : List (String × Byte) := [("PORT_A", portA), ("PORT_B", portB)]

/-- The category names (R77). -/
def categoryNames : List (String × Nibble) :=
  [ ("IODIR", categoryIndex .IODIR), ("IPOL", categoryIndex .IPOL),
    ("GPINTEN", categoryIndex .GPINTEN), ("DEFVAL", categoryIndex .DEFVAL),
    ("INTCON", categoryIndex .INTCON), ("GPPU", categoryIndex .GPPU),
    ("INTF", categoryIndex .INTF), ("INTCAP", categoryIndex .INTCAP),
    ("GPIO", categoryIndex .GPIO), ("OLAT", categoryIndex .OLAT) ]

/-- The Boolean spellings (R77). -/
def booleanNames : List (String × Byte) :=
  [("0", 0x00#8), ("false", 0x00#8), ("1", 0x01#8), ("true", 0x01#8)]

/-- The value a list of names gives a token. -/
def lookupName {α : Type} (names : List (String × α)) (tok : List Char) : Option α :=
  (names.find? (fun e => e.1.toList == tok)).map Prod.snd

/-- The value of a digit in a base up to 16. -/
def digitValue (base : Nat) (c : Char) : Option Nat :=
  let d :=
    if '0' ≤ c ∧ c ≤ '9' then c.toNat - '0'.toNat
    else if 'a' ≤ c ∧ c ≤ 'f' then c.toNat - 'a'.toNat + 10
    else if 'A' ≤ c ∧ c ≤ 'F' then c.toNat - 'A'.toNat + 10
    else base
  if d < base then some d else none

/-- The value of a row of digits after the digits of `acc`. -/
def digitsValue (base : Nat) : Nat → List Char → Option Nat
  | acc, [] => some acc
  | acc, c :: cs =>
    match digitValue base c with
    | none => none
    | some d => digitsValue base (acc * base + d) cs

/-- A number: decimal, or `0x` hexadecimal (R77). -/
def parseNumber : List Char → Option Nat
  | [] => none
  | ['0', 'x'] => none
  | '0' :: 'x' :: cs => digitsValue 16 0 cs
  | cs => digitsValue 10 0 cs

/-- A number that fits a byte. -/
def parseByte (tok : List Char) : Option Byte :=
  match parseNumber tok with
  | none => none
  | some n => if n < 256 then some (BitVec.ofNat 8 n) else none

/-- A register offset: a name or a number (R77). -/
def parseRegister (tok : List Char) : Option Byte :=
  match lookupName registerNames tok with
  | some r => some r
  | none => parseByte tok

/-- A port: a name or a number (R77). -/
def parsePort (tok : List Char) : Option Byte :=
  match lookupName portNames tok with
  | some q => some q
  | none => parseByte tok

/-- A category: a name, or a number that fits CAT (R77). -/
def parseCategory (tok : List Char) : Option Nibble :=
  match lookupName categoryNames tok with
  | some t => some t
  | none =>
    match parseNumber tok with
    | none => none
    | some n => if n < 16 then some (BitVec.ofNat 4 n) else none

/-- A Boolean (R77). -/
def parseBoolean (tok : List Char) : Option Byte := lookupName booleanNames tok

/-- The line cut at every occurrence of a character. -/
def cutAt (sep : Char) : List Char → List (List Char)
  | [] => [[]]
  | c :: cs =>
    match cutAt sep cs with
    | [] => [[c]]
    | t :: ts => if c = sep then [] :: t :: ts else (c :: t) :: ts

/-- A token without the blanks in it. -/
def dropBlanks (tok : List Char) : List Char := tok.filter (fun c => c != ' ')

/-- The mnemonic (up to the first blank) and the operands (cut at commas) of a line. -/
def tokens (line : List Char) : List Char × List (List Char) :=
  (line.takeWhile (fun c => c != ' '),
    (cutAt ',' (line.dropWhile (fun c => c != ' '))).map dropBlanks)

/-- The command of a mnemonic and its operands in the order A, B, C of R73, for RESOLVE the category
first (R77). -/
def assembleTokens (m : Mnemonic) (ops : List (List Char)) : Option Instr :=
  match m, ops with
  | .BEGIN, [a] => (parseByte a).map .beginBus
  | .RESOLVE, [t, p] =>
    (parseCategory t).bind fun t => (parseByte p).map fun p => .resolve t p
  | .BITMASK, [p] => (parseByte p).map .bitmask
  | .INSERT, [n, m, v] =>
    (parseByte n).bind fun n => (parseByte m).bind fun m => (parseByte v).map fun v => .insert n m v
  | .EXTRACT, [n, p] => (parseByte n).bind fun n => (parseByte p).map fun p => .extract n p
  | .READ_REG, [r] => (parseRegister r).map .readReg
  | .WRITE_REG, [r, v] => (parseRegister r).bind fun r => (parseByte v).map fun v => .writeReg r v
  | .SET_BITS, [r, m, v] =>
    (parseRegister r).bind fun r =>
      (parseByte m).bind fun m => (parseByte v).map fun v => .setBits r m v
  | .PIN_MODE, [p, b] => (parseByte p).bind fun p => (parseBoolean b).map fun b => .pinMode p b
  | .PORT_MODE, [q, m] => (parsePort q).bind fun q => (parseByte m).map fun m => .portMode q m
  | .DIGITAL_WRITE, [p, b] =>
    (parseByte p).bind fun p => (parseBoolean b).map fun b => .digitalWrite p b
  | .DIGITAL_READ, [p] => (parseByte p).map .digitalRead
  | .PORT_WRITE, [q, v] => (parsePort q).bind fun q => (parseByte v).map fun v => .portWrite q v
  | .PORT_READ, [q] => (parsePort q).map .portRead
  | .SET_POLARITY, [p, b] =>
    (parseByte p).bind fun p => (parseBoolean b).map fun b => .setPolarity p b
  | .SET_INTERRUPT, [p, b] =>
    (parseByte p).bind fun p => (parseBoolean b).map fun b => .setInterrupt p b
  | .SET_PULLUP, [p, b] =>
    (parseByte p).bind fun p => (parseBoolean b).map fun b => .setPullup p b
  | _, _ => none

/-- The command a line of assembler text stands for (R77), none where it is ill spelt. -/
def assemble (line : String) : Option Instr :=
  let (m, ops) := tokens line.toList
  match (opcodeTable.map Row.mnemonic).find? (fun k => (mnemonicText k).toList == m) with
  | none => none
  | some k => assembleTokens k ops

end Sys2Proof.Machine
end

