-- ==== Sys2Proof/WellFormed.lean ====
section
/-! DEFINITION. Which commands have operands that name something that exists: a pin 0-15 (R12), a
paired category (R107), a port (R104), a defined register (R147).

Every term of `Instr` has an encoding and decodes (R72, R74), whether or not it is well formed: an
ill-formed one runs and answers InvalidPin or InvalidRegister (60_exceptions.md R202). So this is
the operand check of R206 steps 2 and 3 with `PIN_CHECK` = true, as a predicate on syntax
(DESIGN CHOICE, log entry 17, safe). -/

namespace Sys2Proof

open Machine

/-- The operands of the command pass every operand check of R202. -/
def Instr.wellFormed : Instr → Bool
  | .beginBus _ => true
  | .resolve t p => paired t && validPin p
  | .bitmask p => validPin p
  | .insert _ _ _ => true
  | .extract _ p => validPin p
  | .readReg r => inDef r
  | .writeReg r _ => inDef r
  | .setBits r _ _ => inDef r
  | .pinMode p _ => validPin p
  | .portMode q _ => validPort q
  | .digitalWrite p _ => validPin p
  | .digitalRead p => validPin p
  | .portWrite q _ => validPort q
  | .portRead q => validPort q
  | .setPolarity p _ => validPin p
  | .setInterrupt p _ => validPin p
  | .setPullup p _ => validPin p

end Sys2Proof
end

