-- ==== Sys2Proof/Safety.lean ====
section
/-! DEFINITION. The words the statements are written in: what a command checks and issues, what a
legal event is, the invariant of a run, and the states a command passes through. Nothing here is
part of a step. -/

namespace Sys2Proof.Machine

/-! ## What a command checks and issues, by its rule -/

/-- The command names a category, a register or a port that does not exist (R206 step 2). -/
def badRegisterOperand : Instr → Bool
  | .resolve t _ => !paired t
  | .readReg r => !inDef r
  | .writeReg r _ => !inDef r
  | .setBits r _ _ => !inDef r
  | .portMode q _ => !validPort q
  | .portWrite q _ => !validPort q
  | .portRead q => !validPort q
  | .beginBus _ => false
  | .bitmask _ => false
  | .insert _ _ _ => false
  | .extract _ _ => false
  | .pinMode _ _ => false
  | .digitalWrite _ _ => false
  | .digitalRead _ => false
  | .setPolarity _ _ => false
  | .setInterrupt _ _ => false
  | .setPullup _ _ => false

/-- The pin operand of a command that has one (R202, row InvalidPin). -/
def pinOperand : Instr → Option Byte
  | .resolve _ p => some p
  | .bitmask p => some p
  | .extract _ p => some p
  | .pinMode p _ => some p
  | .digitalWrite p _ => some p
  | .digitalRead p => some p
  | .setPolarity p _ => some p
  | .setInterrupt p _ => some p
  | .setPullup p _ => some p
  | .beginBus _ => none
  | .insert _ _ _ => none
  | .readReg _ => none
  | .writeReg _ _ => none
  | .setBits _ _ _ => none
  | .portMode _ _ => none
  | .portWrite _ _ => none
  | .portRead _ => none

/-- The commands that issue frames (R43). -/
def issuesFrames : Instr → Bool
  | .beginBus _ => false
  | .resolve _ _ => false
  | .bitmask _ => false
  | .insert _ _ _ => false
  | .extract _ _ => false
  | .readReg _ => true
  | .writeReg _ _ => true
  | .setBits _ _ _ => true
  | .pinMode _ _ => true
  | .portMode _ _ => true
  | .digitalWrite _ _ => true
  | .digitalRead _ => true
  | .portWrite _ _ => true
  | .portRead _ => true
  | .setPolarity _ _ => true
  | .setInterrupt _ _ => true
  | .setPullup _ _ => true

/-- The error a command's checks raise, in the order of R206 steps 2 to 4. -/
def firstError (i : Instr) (s : State) : Option Status :=
  if badRegisterOperand i then some .InvalidRegister
  else if s.params.pinCheck && (pinOperand i).any (fun p => !validPin p) then some .InvalidPin
  else if issuesFrames i && !s.valid then some .NotInitialized
  else none

/-- Register, mask and value of the read-modify-write commands (R130, R160). -/
def rmwTarget : Instr → Option (Byte × Byte × Byte)
  | .setBits r mask value => some (r, mask, value)
  | .pinMode p b => some (resolvePin p 0#4, bitMask p, enableByte (boolOf b))
  | .setPolarity p b => some (resolvePin p 1#4, bitMask p, enableByte (boolOf b))
  | .setInterrupt p b => some (resolvePin p 2#4, bitMask p, enableByte (boolOf b))
  | .setPullup p b => some (resolvePin p 6#4, bitMask p, enableByte (boolOf b))
  | .digitalWrite p b => some (resolvePin p 9#4, bitMask p, enableByte (boolOf b))
  | .beginBus _ => none
  | .resolve _ _ => none
  | .bitmask _ => none
  | .insert _ _ _ => none
  | .extract _ _ => none
  | .readReg _ => none
  | .writeReg _ _ => none
  | .portMode _ _ => none
  | .digitalRead _ => none
  | .portWrite _ _ => none
  | .portRead _ => none

/-- The micro-operations of a command whose latch holds `n` (R25, and each command's rule). -/
def microOps (i : Instr) (n : Byte) : List MicroOp :=
  match i with
  | .beginBus sel => [.tinit, .finBegin (busAddress sel)]
  | .resolve t p => [.fin (resolvePin p t)]
  | .bitmask p => [.fin (bitMask p)]
  | .insert m mask value => [.fin (insertBits m mask value)]
  | .extract m p => [.fin (b2byte (extractBit m p))]
  | .readReg r => [.w1 r, .rd r, .fin n]
  | .writeReg r v => [.w2 r v, .fin 0x00#8]
  | .setBits r mask value => [.w1 r, .rd r, .w2 r (insertBits n mask value), .fin 0x00#8]
  | .pinMode p b => pinOps p 0#4 b
  | .portMode q m => [.w2 (resolvePortDirection q) m, .fin 0x00#8]
  | .digitalWrite p b => pinOps p 9#4 b
  | .digitalRead p =>
    [.w1 (resolvePin p 9#4), .rd (resolvePin p 9#4), .fin (b2byte (extractBit n p))]
  | .portWrite q v => [.w2 q v, .fin 0x00#8]
  | .portRead q => [.w1 q, .rd q, .fin n]
  | .setPolarity p b => pinOps p 1#4 b
  | .setInterrupt p b => pinOps p 2#4 b
  | .setPullup p b => pinOps p 6#4 b
where
  /-- W1, RD, W2, FIN of a per-pin command (R160). -/
  pinOps (p : Byte) (t : Nibble) (b : Byte) : List MicroOp :=
    [ .w1 (resolvePin p t), .rd (resolvePin p t),
      .w2 (resolvePin p t) (insertBits n (bitMask p) (enableByte (boolOf b))), .fin 0x00#8 ]

/-- How many micro-operations a command has. -/
def microCount (i : Instr) : Nat := (microOps i 0x00#8).length

/-! ## Legal events and the invariant of a run -/

/-- The legal values of `ADDR` once `VALID` = 1 (R21): 0x20..0x27. -/
def legalBusAddress (a : BusAddress) : Bool := 0x20#7 ≤ a && a ≤ 0x27#7

/-- The first byte of a write frame is a defined offset and there is at most one byte more (R42,
R44). -/
def legalPayload : List Byte → Bool
  | [r] => inDef r
  | [r, _] => inDef r
  | _ => false

/-- What an event of RADBF may be: frames carry a legal address and payload and accept at most their
length (R42, R46, R52), and a response with an error has RESULT 0x00 (R27). -/
def Event.legal : Event → Bool
  | .tinit => true
  | .writeFrame a bytes k => legalBusAddress a && legalPayload bytes && k ≤ bytes.length
  | .readFrame a _ => legalBusAddress a
  | .interference _ _ => true
  | .response st v => st == .OK || v == 0x00#8
  | .reset => true

/-- The event is a response. -/
def Event.isResponse : Event → Bool
  | .response _ _ => true
  | .tinit => false
  | .writeFrame _ _ _ => false
  | .readFrame _ _ => false
  | .interference _ _ => false
  | .reset => false

/-- The event is a bus frame (R46, R47). -/
def Event.isFrame : Event → Bool
  | .writeFrame _ _ _ => true
  | .readFrame _ _ => true
  | .tinit => false
  | .interference _ _ => false
  | .response _ _ => false
  | .reset => false

/-- The invariant of a run: it holds at reset and every step keeps it. -/
structure Inv (s : State) : Prop where
  /-- `VALID` = 1 only with `ADDR` in 0x20..0x27 (R21). -/
  addrLegal : s.valid = true → legalBusAddress s.addr = true
  /-- The device register space is in canonical form, on defined offsets only (R42). -/
  deviceWf : s.device.wf = true
  /-- A command in progress has a word that decodes and a micro-operation left (R25); past its first
  micro-operation its checks have passed (R206); and its response is still to come (R27). -/
  busyRunning : ∀ w k, s.seq = .busy w k → s.response = none ∧
    ∃ i, decode w = .command i ∧ k < microCount i ∧ (0 < k → firstError i s = none)
  /-- A command about to read has just had its address frame accepted (R49, R55, R140). -/
  readAddressed : ∀ w i, s.seq = .busy w 1 → decode w = .command i → readsRegister i = true →
    ∃ before r, s.trace = before ++ [.writeFrame s.addr [r] 1]
  /-- An error response has RESULT 0x00 (R27). -/
  responseLegal : ∀ r, s.response = some r → r.status = .OK ∨ r.result = 0x00#8
  /-- Every event so far is legal. -/
  traceLegal : ∀ e ∈ s.trace, e.legal = true

/-- A host's command sequence has come to its end (R235). -/
def runEnded (s : State) : Bool := s.host.isEmpty && s.seq == .idle

/-! ## The states a command passes through

Written out field by field, for statements to say which state a meaning answers. What a record does
not name is as it was in `s`; `takeAccept` and `takeReply` change only the queued draws. -/

/-- The command answered without a frame: SEQ, the response and the trace alone change. -/
def State.answered (s : State) (st : Status) (v : Byte) : State :=
  { s with seq := .idle, response := some ⟨st, v⟩, trace := s.trace ++ [.response st v] }

/-- After the address frame of a read was accepted (R140). -/
def State.afterAddress (s : State) (i : Instr) (r : Byte) : State :=
  { s.takeAccept with
    seq := .busy (encode i) 1
    response := none
    trace := s.trace ++ [.writeFrame s.addr [r] 1] }

/-- After the read frame returned byte `b` (R140): `N` holds it. -/
def State.afterByte (s : State) (i : Instr) (r b : Byte) : State :=
  { s.takeAccept.takeReply with
    seq := .busy (encode i) 2
    response := none
    latchN := b
    trace := s.trace ++ [.writeFrame s.addr [r] 1, .readFrame s.addr (.byte b)] }

/-- The device register space after an accepted write of `v` to `r` (R48, R49). -/
def State.deviceAfter (s : State) (r v : Byte) : Memory :=
  match s.params.deviceModel with
  | .oracle => s.device
  | .memory => s.device.write r.toNat v

/-- After a register-write frame was accepted whole (R143), with `k` the index of the next
micro-operation. -/
def State.afterWrite (s : State) (i : Instr) (r v : Byte) (k : Nat) : State :=
  { s.takeAccept with
    seq := .busy (encode i) k
    response := none
    device := s.deviceAfter r v
    trace := s.trace ++ [.writeFrame s.addr [r, v] 2] }

/-- A register-write frame of which fewer than 2 bytes were accepted ends the command (R143, R144):
one frame, no retry. -/
def State.afterShortWrite (s : State) (r v : Byte) (k : Nat) : State :=
  { s.takeAccept with
    seq := .idle
    response := some ⟨.TransportWriteShortfall, 0x00#8⟩
    trace := s.trace ++ [.writeFrame s.addr [r, v] k, .response .TransportWriteShortfall 0x00#8] }

/-- An address frame of which no byte was accepted ends the command (R140, R141). -/
def State.afterShortAddress (s : State) (r : Byte) : State :=
  { s.takeAccept with
    seq := .idle
    response := some ⟨.TransportWriteShortfall, 0x00#8⟩
    trace := s.trace ++ [.writeFrame s.addr [r] 0, .response .TransportWriteShortfall 0x00#8] }

/-- A read frame that times out ends the command (R140, R142). -/
def State.afterTimeout (s : State) (r : Byte) : State :=
  { s.takeAccept.takeReply with
    seq := .idle
    response := some ⟨.TransportTimeout, 0x00#8⟩
    trace := s.trace ++
      [.writeFrame s.addr [r] 1, .readFrame s.addr .timeout, .response .TransportTimeout 0x00#8] }

/-- The register read of command `i` on `r` from `s` (R140): W1, then RD, with each transport
failure. -/
def ReadsRegister (i : Instr) (s : State) (r : Byte) : Prop :=
  (s.nextAccept 1 = 0 → exec i s = .next (s.afterShortAddress r)) ∧
  (s.nextAccept 1 = 1 →
    exec i s = .next (s.afterAddress i r) ∧
    (s.readOutcome r = .timeout → exec i (s.afterAddress i r) = .next (s.afterTimeout r)) ∧
    ∀ b, s.readOutcome r = .byte b → exec i (s.afterAddress i r) = .next (s.afterByte i r b))

/-- Command `i` from `s` reads register `r` and answers `result b` for the byte `b` it read:
W1, RD, FIN. -/
def ReadCommand (i : Instr) (s : State) (r : Byte) (result : Byte → Byte) : Prop :=
  ReadsRegister i s r ∧
  ∀ b, s.nextAccept 1 = 1 → s.readOutcome r = .byte b →
    exec i (s.afterByte i r b) = .next ((s.afterByte i r b).answered .OK (result b))

/-- Command `i` from `s` writes `v` to register `r`: W2, FIN (R143). -/
def WriteCommand (i : Instr) (s : State) (r v : Byte) : Prop :=
  (s.nextAccept 2 < 2 → exec i s = .next (s.afterShortWrite r v (s.nextAccept 2))) ∧
  (s.nextAccept 2 = 2 →
    exec i s = .next (s.afterWrite i r v 1) ∧
    exec i (s.afterWrite i r v 1) = .next ((s.afterWrite i r v 1).answered .OK 0x00#8))

/-- Command `i` from `s` reads register `r` and writes back the byte composed from the one it read:
W1, RD, W2, FIN (R130). -/
def RmwCommand (i : Instr) (s : State) (r mask value : Byte) : Prop :=
  ReadsRegister i s r ∧
  ∀ b, s.nextAccept 1 = 1 → s.readOutcome r = .byte b →
    let s2 := s.afterByte i r b
    let n := (b &&& ~~~mask) ||| (value &&& mask)
    (s2.nextAccept 2 < 2 → exec i s2 = .next (s2.afterShortWrite r n (s2.nextAccept 2))) ∧
    (s2.nextAccept 2 = 2 →
      exec i s2 = .next (s2.afterWrite i r n 3) ∧
      exec i (s2.afterWrite i r n 3) = .next ((s2.afterWrite i r n 3).answered .OK 0x00#8))

/-- `n` steps of command `i`'s meaning, stopping at the first stop. -/
def execTimes (i : Instr) : Nat → State → Result
  | 0, s => .next s
  | n + 1, s =>
    match exec i s with
    | .next t => execTimes i n t
    | .fault f => .fault f
    | .refused r => .refused r

/-- A result with a function applied to its next state. -/
def mapNext (f : State → State) : Result → Result
  | .next s => .next (f s)
  | .fault r => .fault r
  | .refused r => .refused r

/-- The state with the command word in progress forgotten. -/
def State.forgetWord (s : State) : State :=
  match s.seq with
  | .idle => s
  | .busy _ k => { s with seq := .busy 0#32 k }

/-- The state with the latch `N` forgotten. -/
def State.forgetLatch (s : State) : State := { s with latchN := 0x00#8 }

end Sys2Proof.Machine
end

