-- ==== Sys2Proof/Certificates/Slice0/Obligations.lean ====
section
/-! DEFINITION. The statements about RADBF, for the provers. -/

open Sys2Proof Sys2Proof.Machine

/-! ## Encoding (30_encoding.md) -/

/-- Decoding the word of any command, with any operands, gives the command back (R71 to R74). -/
def Obligations.DecodeOfEncodeIsTheCommand : Prop :=
  ∀ i : Instr, decode (encode i) = .command i

/-- A word that decodes is the word of the command it decodes to: no bit of it is dropped (R71 to
R74). -/
def Obligations.EncodeOfDecodeIsTheWord : Prop :=
  ∀ (w : Word) (i : Instr), decode w = .command i → encode i = w

/-- R74: decoding answers the command of any row the word matches, and a word is illegal exactly when
OPC = 0x0, or OPC = 0xF and CAT is not 1, 2 or 6, or a "zero" field of its OPC is not zero. -/
def Obligations.WordsMatchingNoRowAreIllegal : Prop :=
  ∀ w : Word,
    (∀ r ∈ opcodeTable, w &&& r.mask = r.pattern → decode w = .command (commandOf r.mnemonic w)) ∧
    ((∀ r ∈ opcodeTable, w &&& r.mask ≠ r.pattern) ↔ ∃ reason, decode w = .illegal reason) ∧
    ((∃ reason, decode w = .illegal reason) ↔
      opcOf w = 0x0#4 ∨
      (opcOf w = 0xF#4 ∧ catOf w ≠ 1#4 ∧ catOf w ≠ 2#4 ∧ catOf w ≠ 6#4) ∨
      (opcOf w ∈ [0x1#4, 0x3#4, 0x6#4, 0xC#4, 0xE#4] ∧
        (catOf w ≠ 0#4 ∨ bOf w ≠ 0#8 ∨ cOf w ≠ 0#8)) ∨
      (opcOf w = 0x2#4 ∧ (bOf w ≠ 0#8 ∨ cOf w ≠ 0#8)) ∨
      (opcOf w ∈ [0x4#4, 0x8#4] ∧ catOf w ≠ 0#4) ∨
      (opcOf w ∈ [0x5#4, 0x7#4, 0x9#4, 0xA#4, 0xB#4, 0xD#4] ∧ (catOf w ≠ 0#4 ∨ cOf w ≠ 0#8)) ∨
      (opcOf w = 0xF#4 ∧ cOf w ≠ 0#8))

/-- No word matches two rows of the match and mask table (R73). -/
def Obligations.NoWordMatchesTwoRows : Prop :=
  ∀ w : Word, ∀ r ∈ opcodeTable, ∀ r' ∈ opcodeTable,
    w &&& r.mask = r.pattern → w &&& r'.mask = r'.pattern → r = r'

/-- The fields of a word assembled as (OPC << 28) | (CAT << 24) | (A << 16) | (B << 8) | C are at bits
31:28, 27:24, 23:16, 15:8 and 7:0, and every word is assembled from its fields (R71). -/
def Obligations.FieldsCoverTheCommandWord : Prop :=
  (∀ (opc cat : Nibble) (a b c : Byte) (w : Word),
    w = (opc.setWidth 32 <<< 28) ||| (cat.setWidth 32 <<< 24) ||| (a.setWidth 32 <<< 16)
      ||| (b.setWidth 32 <<< 8) ||| c.setWidth 32 →
    w.extractLsb' 28 4 = opc ∧ w.extractLsb' 24 4 = cat ∧ w.extractLsb' 16 8 = a ∧
      w.extractLsb' 8 8 = b ∧ w.extractLsb' 0 8 = c ∧
      opcOf w = opc ∧ catOf w = cat ∧ aOf w = a ∧ bOf w = b ∧ cOf w = c) ∧
  ∀ w : Word, pack (opcOf w) (catOf w) (aOf w) (bOf w) (cOf w) = w

/-- One word of every command, as the rules of 40 to 44 give it, decodes to the command it stands
for. -/
def Obligations.ExampleWordsDecode : Prop :=
  decode 0x10050000#32 = .command (.beginBus 5#8) ∧
  decode 0x290A0000#32 = .command (.resolve 9#4 10#8) ∧
  decode 0x300B0000#32 = .command (.bitmask 11#8) ∧
  decode 0x40C33CA5#32 = .command (.insert 0xC3#8 0x3C#8 0xA5#8) ∧
  decode 0x50080300#32 = .command (.extract 0x08#8 3#8) ∧
  decode 0x600A0000#32 = .command (.readReg 0x0A#8) ∧
  decode 0x7000FF00#32 = .command (.writeReg 0x00#8 0xFF#8) ∧
  decode 0x8014F05A#32 = .command (.setBits 0x14#8 0xF0#8 0x5A#8) ∧
  decode 0x90030100#32 = .command (.pinMode 3#8 1#8) ∧
  decode 0xA0130000#32 = .command (.portMode 0x13#8 0x00#8) ∧
  decode 0xB00C0100#32 = .command (.digitalWrite 12#8 1#8) ∧
  decode 0xC0030000#32 = .command (.digitalRead 3#8) ∧
  decode 0xD012AA00#32 = .command (.portWrite 0x12#8 0xAA#8) ∧
  decode 0xE0120000#32 = .command (.portRead 0x12#8) ∧
  decode 0xF6090100#32 = .command (.setPullup 9#8 1#8) ∧
  decode 0xF1000100#32 = .command (.setPolarity 0#8 1#8) ∧
  decode 0xF20F0100#32 = .command (.setInterrupt 15#8 1#8)

/-- The assembler's examples (R77), assembled and encoded, give the words of the rules that cite
them. -/
def Obligations.AssemblerExamplesAssemble : Prop :=
  (assemble "BEGIN 5").map encode = some 0x10050000#32 ∧
  (assemble "RESOLVE GPIO, 10").map encode = some 0x290A0000#32 ∧
  (assemble "SET_BITS OLATA, 0xF0, 0x5A").map encode = some 0x8014F05A#32 ∧
  (assemble "SET_PULLUP 9, true").map encode = some 0xF6090100#32

/-! ## The resolver, the register map and the bit-field functions -/

/-- R108: for every paired type index, pins 0..7 resolve to the A register and pins 8..15 to the B
register, every result is a defined offset, and pins p and p + 8 share a mask. -/
def Obligations.PinsResolveToTheirHalf : Prop :=
  (∀ t : Nibble, t ∈ [0#4, 1#4, 2#4, 3#4, 4#4, 6#4, 7#4, 8#4, 9#4, 10#4] → ∀ p : Byte,
    (p ≤ 7#8 → resolvePin p t = 2#8 * t.setWidth 8) ∧
    (8#8 ≤ p → p ≤ 15#8 → resolvePin p t = 2#8 * t.setWidth 8 + 1#8) ∧
    inDef (resolvePin p t) = true) ∧
  ∀ p : Byte, p ≤ 7#8 → bitMask p = bitMask (p + 8#8)

/-- The mask of a pin has exactly the bit p % 8 (R101). -/
def Obligations.MaskOfPinIsItsBit : Prop :=
  ∀ (p : Byte) (k : Nat), k < 8 → ((bitMask p).getLsbD k = true ↔ k = p.toNat % 8)

/-- R41: a paired register is at `(t << 1) | half` with `t = r >> 1` and `half = r & 1`, only
IOCON has type index 5 and it is at 0x0A. And DEF (R42): the defined offsets are exactly the 21 named
ones, 0x00..0x0A and 0x0C..0x15. -/
def Obligations.RegisterMapIsPaired : Prop :=
  (∀ r : DevReg, devRegType r ≠ 5#4 → ∃ h, devRegHalf r = some h ∧
    devRegOffset r = ((devRegType r).setWidth 8 <<< 1) ||| halfBit h ∧
    (devRegType r).setWidth 8 = devRegOffset r >>> 1 ∧ halfBit h = devRegOffset r &&& 1#8) ∧
  (∀ t : Nibble, t ∈ [0#4, 1#4, 2#4, 3#4, 4#4, 6#4, 7#4, 8#4, 9#4, 10#4] → ∀ h,
    ∃ r, devRegType r = t ∧ devRegHalf r = some h ∧
      devRegOffset r = 2#8 * t.setWidth 8 + halfBit h) ∧
  (∀ r : DevReg, devRegType r = 5#4 ↔ devRegOffset r = 0x0A#8) ∧
  (∀ r : DevReg, devRegHalf r = none ↔ devRegType r = 5#4) ∧
  (∀ b : Byte, inDef b = true ↔ ∃ r, devRegOffset r = b) ∧
  (∀ b : Byte, inDef b = true ↔ b ≤ 0x0A#8 ∨ (0x0C#8 ≤ b ∧ b ≤ 0x15#8)) ∧
  ∀ r r' : DevReg, devRegOffset r = devRegOffset r' → r = r'

/-- R104 and R105: the ports are 0x12 and 0x13 and nothing else; they resolve to their own GPIO
register and to IODIRA or IODIRB. -/
def Obligations.PortsResolveToTheirRegisters : Prop :=
  (∀ q : Byte, validPort q = true ↔ q = 0x12#8 ∨ q = 0x13#8) ∧
  (∀ q : Byte, checkPort q = if q = 0x12#8 ∨ q = 0x13#8 then none else some .InvalidRegister) ∧
  portHalf 0x12#8 = .A ∧ portHalf 0x13#8 = .B ∧
  resolvePortGpio 0x12#8 = 0x12#8 ∧ resolvePortGpio 0x13#8 = 0x13#8 ∧
  resolvePortDirection 0x12#8 = 0x00#8 ∧ resolvePortDirection 0x13#8 = 0x01#8

/-- R122 (a) to (g): the laws of the inserter and the extractor. -/
def Obligations.BitFieldLawsHold : Prop :=
  ∀ n m v w p q : Byte,
    insertBits n m v &&& ~~~m = n &&& ~~~m ∧
    insertBits n m v &&& m = v &&& m ∧
    insertBits n 0x00#8 v = n ∧
    insertBits n 0xFF#8 v = v ∧
    insertBits (insertBits n m v) m w = insertBits n m w ∧
    insertBits n m n = n ∧
    extractBit (insertBits n (bitMask p) 0xFF#8) p = true ∧
    extractBit (insertBits n (bitMask p) 0x00#8) p = false ∧
    (bitpos q ≠ bitpos p → extractBit (insertBits n (bitMask p) v) q = extractBit n q)

/-- The extractor returns bit p % 8 (R121). -/
def Obligations.ExtractorReturnsTheBit : Prop :=
  ∀ n p : Byte, extractBit n p = n.getLsbD (p.toNat % 8)

/-- R190: the selector is masked to 3 bits and joined to 0x20, giving 0x20..0x27. -/
def Obligations.BusAddressKeepsThreeSelectorBits : Prop :=
  ∀ sel : Byte, (busAddress sel).toNat = 0x20 + sel.toNat % 8 ∧
    legalBusAddress (busAddress sel) = true ∧ busAddress (sel &&& 0x07#8) = busAddress sel

/-! ## The pure commands: one step, no frame, with or without BEGIN -/

/-- R110: RESOLVE answers InvalidRegister for an unpaired category, else InvalidPin for a pin above
15 under PIN_CHECK, else `(t << 1) | half(p)`; nothing else changes. -/
def Obligations.ResolveAnswersTheOffset : Prop :=
  (∀ t p, decode (pack 0x2#4 t p 0#8 0#8) = .command (.resolve t p)) ∧
  ∀ (t : Nibble) (p : Byte) (s : State), s.seq = .idle →
    exec (.resolve t p) s = .next
      (if t ∉ [0#4, 1#4, 2#4, 3#4, 4#4, 6#4, 7#4, 8#4, 9#4, 10#4] then
        s.answered .InvalidRegister 0x00#8
      else if s.params.pinCheck = true ∧ p > 15#8 then s.answered .InvalidPin 0x00#8
      else s.answered .OK ((t.setWidth 8 <<< 1) ||| if p < 8#8 then 0#8 else 1#8))

/-- R111: BITMASK answers InvalidPin for a pin above 15 under PIN_CHECK, else `1 << (p % 8)`; nothing
else changes. -/
def Obligations.BitmaskAnswersTheMask : Prop :=
  (∀ p, decode (pack 0x3#4 0#4 p 0#8 0#8) = .command (.bitmask p)) ∧
  ∀ (p : Byte) (s : State), s.seq = .idle →
    exec (.bitmask p) s = .next
      (if s.params.pinCheck = true ∧ p > 15#8 then s.answered .InvalidPin 0x00#8
      else s.answered .OK (1#8 <<< (p.toNat % 8)))

/-- R125: INSERT answers `(n & ~mask) | (value & mask)`; nothing else changes. -/
def Obligations.InsertAnswersTheComposition : Prop :=
  (∀ n mask value, decode (pack 0x4#4 0#4 n mask value) = .command (.insert n mask value)) ∧
  ∀ (n mask value : Byte) (s : State), s.seq = .idle →
    exec (.insert n mask value) s =
      .next (s.answered .OK ((n &&& ~~~mask) ||| (value &&& mask)))

/-- R126: EXTRACT answers InvalidPin for a pin above 15 under PIN_CHECK, else bit p % 8 of n as 0x01
or 0x00; nothing else changes. -/
def Obligations.ExtractAnswersTheBit : Prop :=
  (∀ n p, decode (pack 0x5#4 0#4 n p 0#8) = .command (.extract n p)) ∧
  ∀ (n p : Byte) (s : State), s.seq = .idle →
    exec (.extract n p) s = .next
      (if s.params.pinCheck = true ∧ p > 15#8 then s.answered .InvalidPin 0x00#8
      else s.answered .OK (if n.getLsbD (p.toNat % 8) then 0x01#8 else 0x00#8))

/-! ## BEGIN and the commands that issue frames: every micro-operation, every failure

In these the transport's draws have the model's form (log entry 7), and between the steps of a command
no response is pending (the model's, log entry 13). -/

/-- R191 and R190: BEGIN runs TINIT, then sets VALID = 1 and ADDR = 0x20 | (sel & 7) and answers OK,
from any state with SEQ = IDLE; it needs no earlier BEGIN and nothing else changes. -/
def Obligations.BeginSetsTheBusAddress : Prop :=
  (∀ sel, decode (pack 0x1#4 0#4 sel 0#8 0#8) = .command (.beginBus sel)) ∧
  ∀ (sel : Byte) (s : State), s.seq = .idle →
    let s2 : State := { s with
      busAddr := 0xA0#8 ||| (sel &&& 0x07#8)
      seq := .idle
      response := some ⟨.OK, 0x00#8⟩
      trace := s.trace ++ [.tinit, .response .OK 0x00#8] }
    (∃ s1, exec (.beginBus sel) s = .next s1 ∧ s1.seq = .busy (encode (.beginBus sel)) 1 ∧
      s1.trace = s.trace ++ [.tinit] ∧ exec (.beginBus sel) s1 = .next s2) ∧
      s2.valid = true ∧ s2.addr = 0x20#7 ||| (sel &&& 0x07#8).setWidth 7

/-- R150: READ_REG answers InvalidRegister for an undefined offset, else NotInitialized before BEGIN,
else runs W1, RD, FIN and answers the byte read; each transport failure ends it. The draws and the
response while BUSY have the model's form (log entries 7 and 13). -/
def Obligations.ReadRegReadsTheRegister : Prop :=
  (∀ r, decode (pack 0x6#4 0#4 r 0#8 0#8) = .command (.readReg r)) ∧
  ∀ (r : Byte) (s : State), s.seq = .idle →
    (inDef r = false → exec (.readReg r) s = .next (s.answered .InvalidRegister 0x00#8)) ∧
    (inDef r = true → s.valid = false →
      exec (.readReg r) s = .next (s.answered .NotInitialized 0x00#8)) ∧
    (inDef r = true → s.valid = true → ReadCommand (.readReg r) s r (fun b => b))

/-- R151: WRITE_REG answers InvalidRegister for an undefined offset, else NotInitialized before
BEGIN, else runs W2, FIN; fewer than 2 bytes accepted ends it with TransportWriteShortfall. The draws
and the response while BUSY have the model's form (log entries 7 and 13). -/
def Obligations.WriteRegWritesTheRegister : Prop :=
  (∀ r v, decode (pack 0x7#4 0#4 r v 0#8) = .command (.writeReg r v)) ∧
  ∀ (r v : Byte) (s : State), s.seq = .idle →
    (inDef r = false → exec (.writeReg r v) s = .next (s.answered .InvalidRegister 0x00#8)) ∧
    (inDef r = true → s.valid = false →
      exec (.writeReg r v) s = .next (s.answered .NotInitialized 0x00#8)) ∧
    (inDef r = true → s.valid = true → WriteCommand (.writeReg r v) s r v)

/-- R130: SET_BITS answers InvalidRegister for an undefined offset, else NotInitialized before BEGIN,
else runs W1, RD, W2, FIN for every mask, writing `(N & ~mask) | (value & mask)`; each transport
failure ends it. Under Memory, with no interference and every frame successful, r then holds
`insert(N, mask, value)` where N was its content before. The draws and the response while BUSY have
the model's form (log entries 7 and 13). -/
def Obligations.SetBitsReadsThenWrites : Prop :=
  (∀ r mask value, decode (pack 0x8#4 0#4 r mask value) = .command (.setBits r mask value)) ∧
  ∀ (r mask value : Byte) (s : State), s.seq = .idle →
    (inDef r = false → exec (.setBits r mask value) s = .next (s.answered .InvalidRegister 0x00#8)) ∧
    (inDef r = true → s.valid = false →
      exec (.setBits r mask value) s = .next (s.answered .NotInitialized 0x00#8)) ∧
    (inDef r = true → s.valid = true → RmwCommand (.setBits r mask value) s r mask value) ∧
    (s.params.deviceModel = .memory → s.device.wf = true → ∀ b, s.readOutcome r = .byte b →
      let n := (b &&& ~~~mask) ||| (value &&& mask)
      ((s.afterByte (.setBits r mask value) r b).afterWrite (.setBits r mask value) r n 3).device.read
        r.toNat = (s.device.read r.toNat &&& ~~~mask) ||| (value &&& mask))

/-- R160, with R161, R163, R167, R168 and R169: the five per-pin commands answer InvalidPin for a pin
above 15 under PIN_CHECK, else NotInitialized before BEGIN, else read and write the register of the
pin's half at `(t << 1) | half`, setting bit p % 8 iff the operand byte is not 0x00. The draws and the
response while BUSY have the model's form (log entries 7 and 13). -/
def Obligations.PinCommandsSetTheirBit : Prop :=
  (∀ p b,
    decode (pack 0x9#4 0#4 p b 0#8) = .command (.pinMode p b) ∧
    decode (pack 0xB#4 0#4 p b 0#8) = .command (.digitalWrite p b) ∧
    decode (pack 0xF#4 1#4 p b 0#8) = .command (.setPolarity p b) ∧
    decode (pack 0xF#4 2#4 p b 0#8) = .command (.setInterrupt p b) ∧
    decode (pack 0xF#4 6#4 p b 0#8) = .command (.setPullup p b)) ∧
  ∀ (p b : Byte) (s : State), s.seq = .idle →
    ∀ c ∈ [(Instr.pinMode p b, 0#4), (Instr.setPolarity p b, 1#4), (Instr.setInterrupt p b, 2#4),
        (Instr.setPullup p b, 6#4), (Instr.digitalWrite p b, 9#4)],
      (s.params.pinCheck = true → p > 15#8 → exec c.1 s = .next (s.answered .InvalidPin 0x00#8)) ∧
      (s.params.pinCheck = false ∨ p ≤ 15#8 → s.valid = false →
        exec c.1 s = .next (s.answered .NotInitialized 0x00#8)) ∧
      (s.params.pinCheck = false ∨ p ≤ 15#8 → s.valid = true →
        RmwCommand c.1 s ((c.2.setWidth 8 <<< 1) ||| if p < 8#8 then 0#8 else 1#8)
          (1#8 <<< (p.toNat % 8)) (if b = 0x00#8 then 0x00#8 else 0xFF#8))

/-- R162 and R165: PORT_MODE writes IODIRA or IODIRB whole and PORT_WRITE writes GPIOA or GPIOB
whole, by one frame; any other port operand answers InvalidRegister. The draws and the response while
BUSY have the model's form (log entries 7 and 13). -/
def Obligations.PortCommandsWriteWholeRegisters : Prop :=
  (∀ q v,
    decode (pack 0xA#4 0#4 q v 0#8) = .command (.portMode q v) ∧
    decode (pack 0xD#4 0#4 q v 0#8) = .command (.portWrite q v)) ∧
  ∀ (q v : Byte) (s : State), s.seq = .idle →
    ∀ c ∈ [(Instr.portMode q v, if q = 0x12#8 then 0x00#8 else 0x01#8), (Instr.portWrite q v, q)],
      (q ≠ 0x12#8 → q ≠ 0x13#8 → exec c.1 s = .next (s.answered .InvalidRegister 0x00#8)) ∧
      (q = 0x12#8 ∨ q = 0x13#8 → s.valid = false →
        exec c.1 s = .next (s.answered .NotInitialized 0x00#8)) ∧
      (q = 0x12#8 ∨ q = 0x13#8 → s.valid = true → WriteCommand c.1 s c.2 v)

/-- R164: DIGITAL_READ reads the GPIO register of the pin's half and answers bit p % 8 of the byte
read as 0x01 or 0x00, after the checks of the per-pin commands. The draws and the response while BUSY
have the model's form (log entries 7 and 13). -/
def Obligations.DigitalReadAnswersTheBit : Prop :=
  (∀ p, decode (pack 0xC#4 0#4 p 0#8 0#8) = .command (.digitalRead p)) ∧
  ∀ (p : Byte) (s : State), s.seq = .idle →
    (s.params.pinCheck = true → p > 15#8 →
      exec (.digitalRead p) s = .next (s.answered .InvalidPin 0x00#8)) ∧
    (s.params.pinCheck = false ∨ p ≤ 15#8 → s.valid = false →
      exec (.digitalRead p) s = .next (s.answered .NotInitialized 0x00#8)) ∧
    (s.params.pinCheck = false ∨ p ≤ 15#8 → s.valid = true →
      ReadCommand (.digitalRead p) s (if p < 8#8 then 0x12#8 else 0x13#8)
        (fun b => if b.getLsbD (p.toNat % 8) then 0x01#8 else 0x00#8))

/-- R166: PORT_READ reads GPIOA or GPIOB whole and answers the byte read; any other port operand
answers InvalidRegister. The draws and the response while BUSY have the model's form (log entries 7
and 13). -/
def Obligations.PortReadAnswersTheByte : Prop :=
  (∀ q, decode (pack 0xE#4 0#4 q 0#8 0#8) = .command (.portRead q)) ∧
  ∀ (q : Byte) (s : State), s.seq = .idle →
    (q ≠ 0x12#8 → q ≠ 0x13#8 →
      exec (.portRead q) s = .next (s.answered .InvalidRegister 0x00#8)) ∧
    (q = 0x12#8 ∨ q = 0x13#8 → s.valid = false →
      exec (.portRead q) s = .next (s.answered .NotInitialized 0x00#8)) ∧
    (q = 0x12#8 ∨ q = 0x13#8 → s.valid = true → ReadCommand (.portRead q) s q (fun b => b))

/-! ## Frames: what a step of a command leaves unchanged -/

/-- What any step of any command leaves unchanged, from any state. The parameters and the other
agents' lists; BUSADDR but for BEGIN's last micro-operation; N but for the second micro-operation of
a command that reads; the trace but for events added at its end. R191 orders BEGIN's write after TINIT;
that it is BEGIN's second micro-operation is the model's reading (log entry 10). -/
def Obligations.CommandStepsKeepTheRest : Prop :=
  ∀ (i : Instr) (s t : State), exec i s = .next t →
    t.params = s.params ∧ t.host = s.host ∧ t.agenda = s.agenda ∧
    (∃ added, t.trace = s.trace ++ added) ∧
    (t.busAddr ≠ s.busAddr → ∃ sel w, i = .beginBus sel ∧ s.seq = .busy w 1 ∧ t.seq = .idle) ∧
    (t.latchN ≠ s.latchN → readsRegister i = true ∧ ∃ w, s.seq = .busy w 1 ∧ t.seq = .busy w 2) ∧
    (issuesFrames i = false → t.device = s.device ∧ t.latchN = s.latchN ∧ t.acks = s.acks ∧
      t.acceptDraws = s.acceptDraws ∧ t.replies = s.replies ∧ t.replyDraws = s.replyDraws)

/-- Where a command stores. The micro-operation list of the command's rule, at the index SEQ holds, gives
the register and the byte of its next register-write frame: every other register reads as before, and
that one as before or as the byte. Where it gives no such frame, the register space is unchanged. -/
def Obligations.DeviceChangesOnlyAtTheStoredOffset : Prop :=
  ∀ (i : Instr) (s t : State), s.device.wf = true → exec i s = .next t →
    (∀ k, (s.seq = .idle ∧ k = 0 ∨ ∃ w, s.seq = .busy w k) →
      (∀ r v, (microOps i s.latchN)[k]? = some (.w2 r v) →
        (∀ a, a ≠ r.toNat → t.device.read a = s.device.read a) ∧
        (t.device.read r.toNat = s.device.read r.toNat ∨ t.device.read r.toNat = v)) ∧
      ((∀ r v, (microOps i s.latchN)[k]? ≠ some (.w2 r v)) → t.device = s.device))

/-! ## Errors (60_exceptions.md) -/

/-- R201: the codes of the statuses; 7 is no status's code. -/
def Obligations.StatusCodesAreTheTable : Prop :=
  Status.code .OK = 0#3 ∧ Status.code .InvalidPin = 1#3 ∧ Status.code .InvalidRegister = 2#3 ∧
  Status.code .TransportWriteShortfall = 3#3 ∧ Status.code .TransportTimeout = 4#3 ∧
  Status.code .NotInitialized = 5#3 ∧ Status.code .IllegalCommand = 6#3 ∧
  (∀ st : Status, st.code ≠ 7#3 ∧ Status.ofCode st.code = some st) ∧ Status.ofCode 7#3 = none

/-- R204 and R206: a command whose operands or state fail a check answers the first error in the
order InvalidRegister, InvalidPin, NotInitialized, before any frame: SEQ, the response and the
record of the response alone change. -/
def Obligations.FailedChecksAnswerInOrder : Prop :=
  ∀ (i : Instr) (s : State), s.seq = .idle →
    (badRegisterOperand i = true → exec i s = .next (s.answered .InvalidRegister 0x00#8)) ∧
    (badRegisterOperand i = false → s.params.pinCheck = true →
      ∀ p, pinOperand i = some p → p > 15#8 →
        exec i s = .next (s.answered .InvalidPin 0x00#8)) ∧
    (badRegisterOperand i = false →
      (s.params.pinCheck = false ∨ ∀ p, pinOperand i = some p → p ≤ 15#8) →
      issuesFrames i = true → s.valid = false →
        exec i s = .next (s.answered .NotInitialized 0x00#8))

/-- R75: a word that decodes to IllegalCommand is answered with IllegalCommand in one step, whenever
RADBF has its turn in IDLE: with the agenda empty, or by a turn of it, which is used up. No frame, and no
state but the command being taken, the response and its record. The host's list and the agenda are the
model's (log entries 9 and 8). -/
def Obligations.IllegalWordsAnswerIllegalCommand : Prop :=
  ∀ (s : State) (w : Word) (rest : List Word) (reason : Illegal),
    s.seq = .idle → s.host = w :: rest → decode w = .illegal reason →
      (s.agenda = [] →
        step s = .next ({ s with host := rest }.answered .IllegalCommand 0x00#8)) ∧
      ∀ turns, s.agenda = .radbf :: turns →
        step s = .next ({ s with host := rest, agenda := turns }.answered .IllegalCommand 0x00#8)

/-- R205: a step that answers a transport error records the failing frame and the response and no
frame after it, ends the command, and leaves every register of the simulator as it was (what a device
register holds after a failed write frame is not recorded under Oracle, where every read is a draw;
under Memory the spec leaves it unchanged, D21). -/
def Obligations.TransportErrorsEndTheCommand : Prop :=
  ∀ (i : Instr) (s t : State) (added : List Event) (st : Status) (v : Byte),
    exec i s = .next t → t.trace = s.trace ++ added → Event.response st v ∈ added →
    st = .TransportWriteShortfall ∨ st = .TransportTimeout →
      (∃ e, added = [e, .response st 0x00#8] ∧
        ((∃ bytes k, e = .writeFrame s.addr bytes k ∧ k < bytes.length ∧
            st = .TransportWriteShortfall) ∨
          (e = .readFrame s.addr .timeout ∧ st = .TransportTimeout))) ∧
      t.seq = .idle ∧ t.response = some ⟨st, 0x00#8⟩ ∧ t.device = s.device ∧
      t.busAddr = s.busAddr ∧ t.latchN = s.latchN

/-- A well-formed command is answered with neither InvalidPin nor InvalidRegister by any of its steps,
from any state; an ill-formed one is answered with one of them, with PIN_CHECK = true, by its first step
(R202; which commands are called well formed is the model's choice, log entry 17). After the first step
of a well-formed command no such response is pending either, an earlier one having gone with the
acceptance (the model's choice, log entry 13). -/
def Obligations.IllFormedOperandsAreAnswered : Prop :=
  ∀ (i : Instr) (s t : State), exec i s = .next t →
    (i.wellFormed = true → ∃ added, t.trace = s.trace ++ added ∧
      ∀ v, Event.response .InvalidPin v ∉ added ∧ Event.response .InvalidRegister v ∉ added) ∧
    (s.seq = .idle → i.wellFormed = true → ∀ v,
      t.response ≠ some ⟨.InvalidPin, v⟩ ∧ t.response ≠ some ⟨.InvalidRegister, v⟩) ∧
    (s.seq = .idle → i.wellFormed = false → s.params.pinCheck = true →
      t = s.answered .InvalidPin 0x00#8 ∨ t = s.answered .InvalidRegister 0x00#8)

/-! ## The device register space (20_memory.md) -/

/-- R49: under Memory a write frame accepted whole sets M[r], a shorter one and an address frame leave
M unchanged, a read frame answered with a byte returns M[r], and an interference write sets M[r]. What a
register not listed reads as is the model's (log entry 6). -/
def Obligations.MemoryModelReadsLastWrite : Prop :=
  ∀ (s : State) (r v : Byte) (g : DevReg) (a : Nat),
    s.params.deviceModel = .memory → s.device.wf = true →
      (s.nextAccept 2 = 2 → (s.valueFrame r v).device.read a =
        if a = r.toNat then v else s.device.read a) ∧
      (s.nextAccept 2 < 2 → (s.valueFrame r v).device = s.device) ∧
      (s.addressFrame r).device = s.device ∧
      (∀ b, s.readOutcome r = .byte b → b = s.device.read r.toNat) ∧
      (s.interfere g v).device.read a =
        if a = (devRegOffset g).toNat then v else s.device.read a

/-- R48: under Oracle the byte a read frame returns is the transport's draw, whatever it is, and no
step of a command changes the recorded register space. That no interference write changes it either is
the model's reading (log entry 21), and the queue of draws is the model's (log entry 7). -/
def Obligations.OracleReadsAreDraws : Prop :=
  ∀ s : State, s.params.deviceModel = .oracle →
    (∀ r, s.readOutcome r = s.nextReply) ∧
    (∀ r b rest, s.replies = .byte b :: rest → s.readOutcome r = .byte b) ∧
    (∀ i t, exec i s = .next t → t.device = s.device) ∧
    ∀ g v, (s.interfere g v).device = s.device

/-- Every write to the device register space keeps its canonical form, reads back, and leaves every
other register alone. -/
def Obligations.RegisterSpaceWritesReadBack : Prop :=
  ∀ (m : Memory) (a b : Nat) (v : Byte), m.wf = true → definedOffset a = true →
    (m.write a v).wf = true ∧ (m.write a v).read a = v ∧
      (b ≠ a → (m.write a v).read b = m.read b)

/-! ## Runs: steps of the whole machine -/

/-- A step runs the decoded command (R25, R26): with SEQ = IDLE it takes the host's next word and is
one step of its command; with SEQ = BUSY it is the next step of the command in progress. A word placed
by `withFetchWord` is the next one taken. The host's list, the agenda and that accepting a command is no
step of its own are the model's (log entries 9, 8 and 1). -/
def Obligations.StepRunsTheDecodedCommand : Prop :=
  ∀ (s : State) (i : Instr) (w : Word), decode w = .command i →
    (∀ rest, s.agenda = [] → s.seq = .idle → s.host = w :: rest →
      step s = exec i { s with host := rest }) ∧
    (∀ k, s.agenda = [] → s.seq = .busy w k → step s = exec i s) ∧
    (∀ rest turns, s.agenda = .radbf :: turns → s.seq = .idle → s.host = w :: rest →
      step s = exec i { s with host := rest, agenda := turns }) ∧
    (∀ k turns, s.agenda = .radbf :: turns → s.seq = .busy w k →
      step s = exec i { s with agenda := turns }) ∧
    step (s.withFetchWord 32 w.toNat) = exec i { s with seq := .idle }

/-- R26: a command is accepted only while SEQ = IDLE, and accepting it sets SEQ to BUSY(cmd, 0): from
IDLE a command's step is its step from there, with no response pending; a step that takes a word from
the host's list starts in IDLE and takes one. That accepting is no step of its own, that it clears the
pending response, and the host's list are the model's (log entries 1, 13 and 9). -/
def Obligations.CommandsAreAcceptedInIdleOnly : Prop :=
  (∀ (i : Instr) (s : State), s.seq = .idle →
    exec i s = exec i { s with seq := .busy (encode i) 0, response := none }) ∧
  ∀ s t : State, step s = .next t → t.host ≠ s.host →
    s.seq = .idle ∧ ∃ w, s.host = w :: t.host

/-- R231: with SEQ = IDLE and no command from the host, RADBF waits: its turn changes nothing, but for
the agenda's entry for it being used up if there is one. The host's list and the agenda are the model's
(log entries 9 and 8). -/
def Obligations.IdleWaitsForTheHost : Prop :=
  ∀ s : State, s.seq = .idle → s.host = [] →
    (s.agenda = [] → step s = .next s) ∧
    ∀ turns, s.agenda = .radbf :: turns → step s = .next { s with agenda := turns }

/-- R34: what the spec gives for reset. -/
def Obligations.ResetStateIsTheTable : Prop :=
  State.reset.valid = false ∧ State.reset.seq = .idle ∧ State.reset.response = none

/-- R230: a reset puts VALID = 0, SEQ = IDLE and no response, abandons the command in progress without
a response, issues no frame, and touches neither the device registers nor the transport. That a reset
is a turn of the agenda is the model's (log entry 8). -/
def Obligations.ResetAbandonsTheCommand : Prop :=
  ∀ (s : State) (turns : List Turn), s.agenda = .reset :: turns →
    ∃ t, step s = .next t ∧ t.valid = false ∧ t.seq = .idle ∧ t.response = none ∧
      t.device = s.device ∧ t.acks = s.acks ∧ t.replies = s.replies ∧
      t.acceptDraws = s.acceptDraws ∧ t.replyDraws = s.replyDraws ∧ t.host = s.host ∧
      t.params = s.params ∧ t.trace = s.trace ++ [.reset] ∧ t.agenda = turns

/-- R55: an interference write takes place at once unless SEQ stands between the address frame and the
read frame of a register read; there RADBF moves and the write is still to come. That the agent moves
by turns of the agenda, and that such a write waits, are the model's (log entry 8). The write sets its
register under Memory (R49) and changes no recorded register under Oracle (the model's reading, log
entry 21). -/
def Obligations.InterferenceWaitsForARegisterRead : Prop :=
  ∀ (s : State) (g : DevReg) (v : Byte) (turns : List Turn), s.agenda = .interfere g v :: turns →
    ((∀ w i, s.seq = .busy w 1 → decode w = .command i → readsRegister i = false) →
      step s = .next { s with
        agenda := turns
        device := s.deviceAfter (devRegOffset g) v
        trace := s.trace ++ [.interference g v] }) ∧
    (∀ w i, s.seq = .busy w 1 → decode w = .command i → readsRegister i = true →
      step s = exec i s ∧ ∀ t, step s = .next t → t.agenda = s.agenda)

/-- R33: no step changes the parameters (that they stand in the state is the model's, log entry 2). -/
def Obligations.ParametersNeverChange : Prop :=
  ∀ s t : State, step s = .next t → t.params = s.params

/-- R21: BUSADDR is written only by BEGIN's last micro-operation, which leaves VALID = 1 and ADDR in
0x20..0x27, and by reset, which leaves VALID = 0. That it is BEGIN's last micro-operation is the model's
reading (log entry 10). -/
def Obligations.OnlyBeginAndResetWriteBusAddr : Prop :=
  ∀ s t : State, step s = .next t → t.busAddr ≠ s.busAddr →
    (∃ w sel, s.seq = .busy w 1 ∧ decode w = .command (.beginBus sel) ∧ t.valid = true ∧
      t.addr = busAddress sel ∧ legalBusAddress t.addr = true) ∨
    (∃ turns, s.agenda = .reset :: turns ∧ t.valid = false)

/-- Every frame a step of any state issues is addressed to ADDR with VALID = 1, a write frame's first
byte is a defined offset with at most one byte after it, and it accepts at most its length (R21, R42, R43,
R44, R46). A step issues at most one frame (R25) and adds at most one event more. -/
def Obligations.FramesCarryDefinedOffsets : Prop :=
  ∀ s t : State, step s = .next t → ∃ added, t.trace = s.trace ++ added ∧
    (∀ a bytes k, Event.writeFrame a bytes k ∈ added →
      s.valid = true ∧ a = s.addr ∧ k ≤ bytes.length ∧
        ∃ r rest, bytes = r :: rest ∧ inDef r = true ∧ rest.length ≤ 1) ∧
    (∀ a o, Event.readFrame a o ∈ added → s.valid = true ∧ a = s.addr) ∧
    added.countP Event.isFrame ≤ 1 ∧ added.length ≤ 2

/-- Reset meets the invariant of a run. The model's own reset values are log entries 4 to 9
and 12. -/
def Obligations.ResetMeetsTheInvariant : Prop := Inv State.reset

/-- Every step from a state that meets the invariant gives a state that meets it: legal bus address,
canonical register space on defined offsets, a running command with a micro-operation left whose
checks have passed, no response pending while busy (the model's choice, log entry 13), an address frame
just before every read, zero results on errors, legal events only. -/
def Obligations.StepsKeepTheInvariant : Prop :=
  ∀ s t : State, Inv s → step s = .next t → Inv t

/-- R203: RADBF never stops: from every state that meets the invariant the step has a next state. -/
def Obligations.RadbfNeverStops : Prop :=
  ∀ s : State, Inv s → ∃ t, step s = .next t

/-- The address frame a read frame belongs to comes just before it (R49, R55, R140). -/
def Obligations.ReadFramesFollowTheirAddressFrame : Prop :=
  ∀ (s t : State) (a : BusAddress) (o : ReadOutcome) (tail : List Event), Inv s → step s = .next t →
    t.trace = s.trace ++ .readFrame a o :: tail →
      ∃ before r, s.trace = before ++ [.writeFrame a [r] 1]

/-- Every command answers: within four micro-operations of RADBF a presented command has its response
and SEQ is IDLE again (R25, R27, R142). The host's list and the empty agenda are the model's (log
entries 9 and 8). -/
def Obligations.CommandsAnswerWithinFourSteps : Prop :=
  ∀ s : State, Inv s → s.agenda = [] → (s.seq = .idle → s.host ≠ []) →
    ∃ n t, 1 ≤ n ∧ n ≤ 4 ∧ Host.Core.run core n s = .next t ∧ t.seq = .idle ∧
      (∃ resp, t.response = some resp) ∧
      (s.seq = .idle → t.host = s.host.tail) ∧ (s.seq ≠ .idle → t.host = s.host)

/-- R28: `N` is dead between commands. Two runs from IDLE that differ only in `N` issue the same
frames and responses and end in states that differ at most in `N`. -/
def Obligations.LatchIsDeadBetweenCommands : Prop :=
  ∀ (n : Nat) (s : State) (b : Byte), s.seq = .idle →
    mapNext State.forgetLatch (Host.Core.run core n { s with latchN := b }) =
      mapNext State.forgetLatch (Host.Core.run core n s)

/-- A host's command sequence comes to its end, and every command of it is answered once (R26, R27,
R203, R235): within four steps a command SEQ is IDLE with nothing left to present, and the record
holds one more response for each command that was waiting or in progress. The host's list, the empty
agenda and the record are the model's (log entries 9, 8 and 12). -/
def Obligations.HostSequencesAreAnsweredOnceEach : Prop :=
  ∀ s : State, Inv s → s.agenda = [] →
    ∃ n t, n ≤ 4 * (s.host.length + 1) ∧ Host.Core.run core n s = .next t ∧ runEnded t = true ∧
      t.trace.countP Event.isResponse =
        s.trace.countP Event.isResponse + s.host.length + (if s.seq = .idle then 0 else 1)

/-- R170: on a valid port PORT_WRITE and PORT_READ are WRITE_REG and READ_REG, and on a valid pin each
per-pin command is SET_BITS on its register, mask and value: step by step the states differ only in
the command word SEQ holds. -/
def Obligations.PinAndPortCommandsIssueRegisterFrames : Prop :=
  ∀ (n : Nat) (s : State), s.seq = .idle →
    (∀ q v, q = 0x12#8 ∨ q = 0x13#8 →
      mapNext State.forgetWord (execTimes (.portWrite q v) n s) =
        mapNext State.forgetWord (execTimes (.writeReg q v) n s) ∧
      mapNext State.forgetWord (execTimes (.portRead q) n s) =
        mapNext State.forgetWord (execTimes (.readReg q) n s)) ∧
    (∀ p b, p ≤ 15#8 →
      ∀ c ∈ [(Instr.pinMode p b, 0#4), (Instr.setPolarity p b, 1#4), (Instr.setInterrupt p b, 2#4),
        (Instr.setPullup p b, 6#4), (Instr.digitalWrite p b, 9#4)],
      mapNext State.forgetWord (execTimes c.1 n s) =
        mapNext State.forgetWord (execTimes
          (.setBits (resolvePin p c.2) (bitMask p) (if b = 0x00#8 then 0x00#8 else 0xFF#8)) n s))

/-! ## The read-modify-write under the simulator -/

/-- R130's guarantee and R122 (a): with no interference and every frame successful, a
read-modify-write command leaves its register at `(N & ~mask) | (value & mask)` where N was its
content before, and every other register as it was. The agenda and the queued draws are the model's (log
entries 8 and 7). -/
def Obligations.ReadModifyWriteKeepsOtherBits : Prop :=
  ∀ (s : State) (i : Instr) (r mask value : Byte) (rest : List Word),
    rmwTarget i = some (r, mask, value) → firstError i s = none → s.seq = .idle →
    s.params.deviceModel = .memory → s.device.wf = true → s.agenda = [] →
    s.host = encode i :: rest →
    s.nextAccept 1 = 1 → s.takeAccept.nextAccept 2 = 2 → s.nextReply ≠ .timeout →
    ∃ t, Host.Core.run core 4 s = .next t ∧ t.response = some ⟨.OK, 0x00#8⟩ ∧ t.seq = .idle ∧
      t.host = rest ∧
      t.device.read r.toNat = (s.device.read r.toNat &&& ~~~mask) ||| (value &&& mask) ∧
      t.device.read r.toNat &&& ~~~mask = s.device.read r.toNat &&& ~~~mask ∧
      ∀ a, a ≠ r.toNat → t.device.read a = s.device.read a

/-- R56: an interference write of w to the register between the read and the write of a
read-modify-write is lost in every bit; one to another register stands. The agenda and the queued draws
are the model's (log entries 8 and 7). -/
def Obligations.RaceLosesTheInterferingWrite : Prop :=
  ∀ (s : State) (i : Instr) (r mask value w : Byte) (g : DevReg) (turns : List Turn)
    (rest : List Word),
    rmwTarget i = some (r, mask, value) → firstError i s = none → s.seq = .idle →
    s.params.deviceModel = .memory → s.device.wf = true →
    s.agenda = .radbf :: .radbf :: .interfere g w :: .radbf :: .radbf :: turns →
    s.host = encode i :: rest →
    s.nextAccept 1 = 1 → s.takeAccept.nextAccept 2 = 2 → s.nextReply ≠ .timeout →
    ∃ t, Host.Core.run core 5 s = .next t ∧ t.response = some ⟨.OK, 0x00#8⟩ ∧
      t.device.read r.toNat = (s.device.read r.toNat &&& ~~~mask) ||| (value &&& mask) ∧
      (devRegOffset g ≠ r → t.device.read (devRegOffset g).toNat = w) ∧
      ∀ a, a ≠ r.toNat → a ≠ (devRegOffset g).toNat → t.device.read a = s.device.read a

/-- R171 with no interference write at all: under Memory, with every frame successful, DIGITAL_WRITE
of a true level and then DIGITAL_READ of the same pin answers 0x01, for every pin 0..15; with a false
level it answers 0x00. The agenda and the queued draws are the model's (log entries 8 and 7). -/
def Obligations.DigitalWriteThenReadRoundTrips : Prop :=
  ∀ (s : State) (p level : Byte) (rest : List Word),
    p ≤ 15#8 → s.valid = true → s.seq = .idle → s.params.deviceModel = .memory →
    s.device.wf = true → s.agenda = [] →
    s.host = encode (.digitalWrite p level) :: encode (.digitalRead p) :: rest →
    s.nextAccept 1 = 1 → s.takeAccept.nextAccept 2 = 2 →
    s.takeAccept.takeAccept.nextAccept 1 = 1 →
    s.nextReply ≠ .timeout → s.takeReply.nextReply ≠ .timeout →
    ∃ t, Host.Core.run core 7 s = .next t ∧ t.seq = .idle ∧ t.host = rest ∧
      t.response = some ⟨.OK, if level = 0x00#8 then 0x00#8 else 0x01#8⟩
end

