-- ==== Sys2Proof/Laws/Decode.lean ====
section
/-! SUPPORT. The fields of a packed word (30_encoding.md R71), and a row's match by fields (R73). -/

namespace Sys2Proof

@[simp] theorem opcOf_pack (o c : Nibble) (a b d : Byte) : opcOf (pack o c a b d) = o := by
  apply BitVec.eq_of_getLsbD_eq
  intro i hi
  simp only [opcOf, pack, BitVec.getLsbD_extractLsb', BitVec.getLsbD_or, BitVec.getLsbD_shiftLeft,
    BitVec.getLsbD_setWidth, hi, decide_true, Bool.true_and]
  interval_cases i <;> simp

@[simp] theorem catOf_pack (o c : Nibble) (a b d : Byte) : catOf (pack o c a b d) = c := by
  apply BitVec.eq_of_getLsbD_eq
  intro i hi
  simp only [catOf, pack, BitVec.getLsbD_extractLsb', BitVec.getLsbD_or, BitVec.getLsbD_shiftLeft,
    BitVec.getLsbD_setWidth, hi, decide_true, Bool.true_and]
  interval_cases i <;> simp

@[simp] theorem aOf_pack (o c : Nibble) (a b d : Byte) : aOf (pack o c a b d) = a := by
  apply BitVec.eq_of_getLsbD_eq
  intro i hi
  simp only [aOf, pack, BitVec.getLsbD_extractLsb', BitVec.getLsbD_or, BitVec.getLsbD_shiftLeft,
    BitVec.getLsbD_setWidth, hi, decide_true, Bool.true_and]
  interval_cases i <;> simp

@[simp] theorem bOf_pack (o c : Nibble) (a b d : Byte) : bOf (pack o c a b d) = b := by
  apply BitVec.eq_of_getLsbD_eq
  intro i hi
  simp only [bOf, pack, BitVec.getLsbD_extractLsb', BitVec.getLsbD_or, BitVec.getLsbD_shiftLeft,
    BitVec.getLsbD_setWidth, hi, decide_true, Bool.true_and]
  interval_cases i <;> simp

@[simp] theorem cOf_pack (o c : Nibble) (a b d : Byte) : cOf (pack o c a b d) = d := by
  apply BitVec.eq_of_getLsbD_eq
  intro i hi
  simp only [cOf, pack, BitVec.getLsbD_extractLsb', BitVec.getLsbD_or, BitVec.getLsbD_shiftLeft,
    BitVec.getLsbD_setWidth, hi, decide_true, Bool.true_and]
  interval_cases i <;> simp

/-- Two words with the same five fields are the same word: the fields cover the word. -/
theorem word_ext {w v : Word} (ho : opcOf w = opcOf v) (hc : catOf w = catOf v)
    (ha : aOf w = aOf v) (hb : bOf w = bOf v) (hd : cOf w = cOf v) : w = v := by
  apply BitVec.eq_of_getLsbD_eq
  intro i hi
  by_cases h1 : i < 8
  · simpa [cOf, h1] using congrArg (fun x => x.getLsbD i) hd
  · by_cases h2 : i < 16
    · have : i - 8 < 8 := by omega
      simpa [bOf, this, show 8 + (i - 8) = i by omega] using congrArg (fun x => x.getLsbD (i - 8)) hb
    · by_cases h3 : i < 24
      · have : i - 16 < 8 := by omega
        simpa [aOf, this, show 16 + (i - 16) = i by omega] using
          congrArg (fun x => x.getLsbD (i - 16)) ha
      · by_cases h4 : i < 28
        · have : i - 24 < 4 := by omega
          simpa [catOf, this, show 24 + (i - 24) = i by omega] using
            congrArg (fun x => x.getLsbD (i - 24)) hc
        · have : i - 28 < 4 := by omega
          simpa [opcOf, this, show 28 + (i - 28) = i by omega] using
            congrArg (fun x => x.getLsbD (i - 28)) ho

theorem opcOf_and (w v : Word) : opcOf (w &&& v) = opcOf w &&& opcOf v := by
  simp [opcOf, BitVec.extractLsb'_and]
theorem catOf_and (w v : Word) : catOf (w &&& v) = catOf w &&& catOf v := by
  simp [catOf, BitVec.extractLsb'_and]
theorem aOf_and (w v : Word) : aOf (w &&& v) = aOf w &&& aOf v := by
  simp [aOf, BitVec.extractLsb'_and]
theorem bOf_and (w v : Word) : bOf (w &&& v) = bOf w &&& bOf v := by
  simp [bOf, BitVec.extractLsb'_and]
theorem cOf_and (w v : Word) : cOf (w &&& v) = cOf w &&& cOf v := by
  simp [cOf, BitVec.extractLsb'_and]

/-- A word is a row's iff each of its fields, masked, is the pattern's (R73). -/
theorem hits_iff (r : Row) (w : Word) :
    r.hits w = true ↔ opcOf w &&& opcOf r.mask = opcOf r.pattern ∧
      catOf w &&& catOf r.mask = catOf r.pattern ∧ aOf w &&& aOf r.mask = aOf r.pattern ∧
      bOf w &&& bOf r.mask = bOf r.pattern ∧ cOf w &&& cOf r.mask = cOf r.pattern := by
  unfold Row.hits
  rw [beq_iff_eq]
  constructor
  · intro h
    rw [← opcOf_and, ← catOf_and, ← aOf_and, ← bOf_and, ← cOf_and, h]
    exact ⟨rfl, rfl, rfl, rfl, rfl⟩
  · rintro ⟨h1, h2, h3, h4, h5⟩
    exact word_ext (by rw [opcOf_and, h1]) (by rw [catOf_and, h2]) (by rw [aOf_and, h3])
      (by rw [bOf_and, h4]) (by rw [cOf_and, h5])

/-- The word of its fields. -/
theorem pack_fields (w : Word) : pack (opcOf w) (catOf w) (aOf w) (bOf w) (cOf w) = w :=
  word_ext (by simp) (by simp) (by simp) (by simp) (by simp)

theorem and_ones_nibble (x : Nibble) : x &&& 15#4 = x := BitVec.and_allOnes
theorem and_ones_byte (x : Byte) : x &&& 255#8 = x := BitVec.and_allOnes

/-! Each row's match as conditions on fields (R73): the opcode, and the fields that must be 0 or name
the sub-function. -/

theorem hits_BEGIN (w : Word) :
    Row.hits ⟨.BEGIN, 0x10000000#32, 0xFF00FFFF#32⟩ w = decide (opcOf w = 1#4 ∧ catOf w = 0#4 ∧ bOf w = 0#8 ∧ cOf w = 0#8) := by
  rw [show (0x10000000#32 : Word) = pack 1#4 0#4 0#8 0#8 0#8 from rfl,
    show (0xFF00FFFF#32 : Word) = pack 15#4 15#4 0#8 255#8 255#8 from rfl,
    Bool.eq_iff_iff, hits_iff, decide_eq_true_iff]
  simp [and_ones_nibble, and_ones_byte]

theorem hits_RESOLVE (w : Word) :
    Row.hits ⟨.RESOLVE, 0x20000000#32, 0xF000FFFF#32⟩ w = decide (opcOf w = 2#4 ∧ bOf w = 0#8 ∧ cOf w = 0#8) := by
  rw [show (0x20000000#32 : Word) = pack 2#4 0#4 0#8 0#8 0#8 from rfl,
    show (0xF000FFFF#32 : Word) = pack 15#4 0#4 0#8 255#8 255#8 from rfl,
    Bool.eq_iff_iff, hits_iff, decide_eq_true_iff]
  simp [and_ones_nibble, and_ones_byte]

theorem hits_BITMASK (w : Word) :
    Row.hits ⟨.BITMASK, 0x30000000#32, 0xFF00FFFF#32⟩ w = decide (opcOf w = 3#4 ∧ catOf w = 0#4 ∧ bOf w = 0#8 ∧ cOf w = 0#8) := by
  rw [show (0x30000000#32 : Word) = pack 3#4 0#4 0#8 0#8 0#8 from rfl,
    show (0xFF00FFFF#32 : Word) = pack 15#4 15#4 0#8 255#8 255#8 from rfl,
    Bool.eq_iff_iff, hits_iff, decide_eq_true_iff]
  simp [and_ones_nibble, and_ones_byte]

theorem hits_INSERT (w : Word) :
    Row.hits ⟨.INSERT, 0x40000000#32, 0xFF000000#32⟩ w = decide (opcOf w = 4#4 ∧ catOf w = 0#4) := by
  rw [show (0x40000000#32 : Word) = pack 4#4 0#4 0#8 0#8 0#8 from rfl,
    show (0xFF000000#32 : Word) = pack 15#4 15#4 0#8 0#8 0#8 from rfl,
    Bool.eq_iff_iff, hits_iff, decide_eq_true_iff]
  simp [and_ones_nibble]

theorem hits_EXTRACT (w : Word) :
    Row.hits ⟨.EXTRACT, 0x50000000#32, 0xFF0000FF#32⟩ w = decide (opcOf w = 5#4 ∧ catOf w = 0#4 ∧ cOf w = 0#8) := by
  rw [show (0x50000000#32 : Word) = pack 5#4 0#4 0#8 0#8 0#8 from rfl,
    show (0xFF0000FF#32 : Word) = pack 15#4 15#4 0#8 0#8 255#8 from rfl,
    Bool.eq_iff_iff, hits_iff, decide_eq_true_iff]
  simp [and_ones_nibble, and_ones_byte]

theorem hits_READ_REG (w : Word) :
    Row.hits ⟨.READ_REG, 0x60000000#32, 0xFF00FFFF#32⟩ w = decide (opcOf w = 6#4 ∧ catOf w = 0#4 ∧ bOf w = 0#8 ∧ cOf w = 0#8) := by
  rw [show (0x60000000#32 : Word) = pack 6#4 0#4 0#8 0#8 0#8 from rfl,
    show (0xFF00FFFF#32 : Word) = pack 15#4 15#4 0#8 255#8 255#8 from rfl,
    Bool.eq_iff_iff, hits_iff, decide_eq_true_iff]
  simp [and_ones_nibble, and_ones_byte]

theorem hits_WRITE_REG (w : Word) :
    Row.hits ⟨.WRITE_REG, 0x70000000#32, 0xFF0000FF#32⟩ w = decide (opcOf w = 7#4 ∧ catOf w = 0#4 ∧ cOf w = 0#8) := by
  rw [show (0x70000000#32 : Word) = pack 7#4 0#4 0#8 0#8 0#8 from rfl,
    show (0xFF0000FF#32 : Word) = pack 15#4 15#4 0#8 0#8 255#8 from rfl,
    Bool.eq_iff_iff, hits_iff, decide_eq_true_iff]
  simp [and_ones_nibble, and_ones_byte]

theorem hits_SET_BITS (w : Word) :
    Row.hits ⟨.SET_BITS, 0x80000000#32, 0xFF000000#32⟩ w = decide (opcOf w = 8#4 ∧ catOf w = 0#4) := by
  rw [show (0x80000000#32 : Word) = pack 8#4 0#4 0#8 0#8 0#8 from rfl,
    show (0xFF000000#32 : Word) = pack 15#4 15#4 0#8 0#8 0#8 from rfl,
    Bool.eq_iff_iff, hits_iff, decide_eq_true_iff]
  simp [and_ones_nibble]

theorem hits_PIN_MODE (w : Word) :
    Row.hits ⟨.PIN_MODE, 0x90000000#32, 0xFF0000FF#32⟩ w = decide (opcOf w = 9#4 ∧ catOf w = 0#4 ∧ cOf w = 0#8) := by
  rw [show (0x90000000#32 : Word) = pack 9#4 0#4 0#8 0#8 0#8 from rfl,
    show (0xFF0000FF#32 : Word) = pack 15#4 15#4 0#8 0#8 255#8 from rfl,
    Bool.eq_iff_iff, hits_iff, decide_eq_true_iff]
  simp [and_ones_nibble, and_ones_byte]

theorem hits_PORT_MODE (w : Word) :
    Row.hits ⟨.PORT_MODE, 0xA0000000#32, 0xFF0000FF#32⟩ w = decide (opcOf w = 10#4 ∧ catOf w = 0#4 ∧ cOf w = 0#8) := by
  rw [show (0xA0000000#32 : Word) = pack 10#4 0#4 0#8 0#8 0#8 from rfl,
    show (0xFF0000FF#32 : Word) = pack 15#4 15#4 0#8 0#8 255#8 from rfl,
    Bool.eq_iff_iff, hits_iff, decide_eq_true_iff]
  simp [and_ones_nibble, and_ones_byte]

theorem hits_DIGITAL_WRITE (w : Word) :
    Row.hits ⟨.DIGITAL_WRITE, 0xB0000000#32, 0xFF0000FF#32⟩ w = decide (opcOf w = 11#4 ∧ catOf w = 0#4 ∧ cOf w = 0#8) := by
  rw [show (0xB0000000#32 : Word) = pack 11#4 0#4 0#8 0#8 0#8 from rfl,
    show (0xFF0000FF#32 : Word) = pack 15#4 15#4 0#8 0#8 255#8 from rfl,
    Bool.eq_iff_iff, hits_iff, decide_eq_true_iff]
  simp [and_ones_nibble, and_ones_byte]

theorem hits_DIGITAL_READ (w : Word) :
    Row.hits ⟨.DIGITAL_READ, 0xC0000000#32, 0xFF00FFFF#32⟩ w = decide (opcOf w = 12#4 ∧ catOf w = 0#4 ∧ bOf w = 0#8 ∧ cOf w = 0#8) := by
  rw [show (0xC0000000#32 : Word) = pack 12#4 0#4 0#8 0#8 0#8 from rfl,
    show (0xFF00FFFF#32 : Word) = pack 15#4 15#4 0#8 255#8 255#8 from rfl,
    Bool.eq_iff_iff, hits_iff, decide_eq_true_iff]
  simp [and_ones_nibble, and_ones_byte]

theorem hits_PORT_WRITE (w : Word) :
    Row.hits ⟨.PORT_WRITE, 0xD0000000#32, 0xFF0000FF#32⟩ w = decide (opcOf w = 13#4 ∧ catOf w = 0#4 ∧ cOf w = 0#8) := by
  rw [show (0xD0000000#32 : Word) = pack 13#4 0#4 0#8 0#8 0#8 from rfl,
    show (0xFF0000FF#32 : Word) = pack 15#4 15#4 0#8 0#8 255#8 from rfl,
    Bool.eq_iff_iff, hits_iff, decide_eq_true_iff]
  simp [and_ones_nibble, and_ones_byte]

theorem hits_PORT_READ (w : Word) :
    Row.hits ⟨.PORT_READ, 0xE0000000#32, 0xFF00FFFF#32⟩ w = decide (opcOf w = 14#4 ∧ catOf w = 0#4 ∧ bOf w = 0#8 ∧ cOf w = 0#8) := by
  rw [show (0xE0000000#32 : Word) = pack 14#4 0#4 0#8 0#8 0#8 from rfl,
    show (0xFF00FFFF#32 : Word) = pack 15#4 15#4 0#8 255#8 255#8 from rfl,
    Bool.eq_iff_iff, hits_iff, decide_eq_true_iff]
  simp [and_ones_nibble, and_ones_byte]

theorem hits_SET_POLARITY (w : Word) :
    Row.hits ⟨.SET_POLARITY, 0xF1000000#32, 0xFF0000FF#32⟩ w = decide (opcOf w = 15#4 ∧ catOf w = 1#4 ∧ cOf w = 0#8) := by
  rw [show (0xF1000000#32 : Word) = pack 15#4 1#4 0#8 0#8 0#8 from rfl,
    show (0xFF0000FF#32 : Word) = pack 15#4 15#4 0#8 0#8 255#8 from rfl,
    Bool.eq_iff_iff, hits_iff, decide_eq_true_iff]
  simp [and_ones_nibble, and_ones_byte]

theorem hits_SET_INTERRUPT (w : Word) :
    Row.hits ⟨.SET_INTERRUPT, 0xF2000000#32, 0xFF0000FF#32⟩ w = decide (opcOf w = 15#4 ∧ catOf w = 2#4 ∧ cOf w = 0#8) := by
  rw [show (0xF2000000#32 : Word) = pack 15#4 2#4 0#8 0#8 0#8 from rfl,
    show (0xFF0000FF#32 : Word) = pack 15#4 15#4 0#8 0#8 255#8 from rfl,
    Bool.eq_iff_iff, hits_iff, decide_eq_true_iff]
  simp [and_ones_nibble, and_ones_byte]

theorem hits_SET_PULLUP (w : Word) :
    Row.hits ⟨.SET_PULLUP, 0xF6000000#32, 0xFF0000FF#32⟩ w = decide (opcOf w = 15#4 ∧ catOf w = 6#4 ∧ cOf w = 0#8) := by
  rw [show (0xF6000000#32 : Word) = pack 15#4 6#4 0#8 0#8 0#8 from rfl,
    show (0xFF0000FF#32 : Word) = pack 15#4 15#4 0#8 0#8 255#8 from rfl,
    Bool.eq_iff_iff, hits_iff, decide_eq_true_iff]
  simp [and_ones_nibble, and_ones_byte]

/-- What the decoder answers for the row it found, if any. -/
def answerOf (w : Word) (found : Option Row) : Decoded :=
  match found with
  | some r => .command (commandOf r.mnemonic w)
  | none => .illegal (illegalReason w)

theorem answerOf_nil (w : Word) :
    answerOf w ([].find? (fun r => Row.hits r w)) = .illegal (illegalReason w) := rfl

theorem answerOf_cons (w : Word) (r : Row) (rest : List Row) :
    answerOf w ((r :: rest).find? (fun r => r.hits w)) =
      if r.hits w = true then .command (commandOf r.mnemonic w)
      else answerOf w (rest.find? (fun r => r.hits w)) := by
  by_cases h : r.hits w = true <;> simp [List.find?, h, answerOf]

/-- The decoder by fields: the table of R73 searched in order, each row's match written out. -/
theorem decode_by_fields (w : Word) : decode w =
    if opcOf w = 1#4 ∧ catOf w = 0#4 ∧ bOf w = 0#8 ∧ cOf w = 0#8 then .command (.beginBus (aOf w))
    else if opcOf w = 2#4 ∧ bOf w = 0#8 ∧ cOf w = 0#8 then .command (.resolve (catOf w) (aOf w))
    else if opcOf w = 3#4 ∧ catOf w = 0#4 ∧ bOf w = 0#8 ∧ cOf w = 0#8 then .command (.bitmask (aOf w))
    else if opcOf w = 4#4 ∧ catOf w = 0#4 then .command (.insert (aOf w) (bOf w) (cOf w))
    else if opcOf w = 5#4 ∧ catOf w = 0#4 ∧ cOf w = 0#8 then .command (.extract (aOf w) (bOf w))
    else if opcOf w = 6#4 ∧ catOf w = 0#4 ∧ bOf w = 0#8 ∧ cOf w = 0#8 then .command (.readReg (aOf w))
    else if opcOf w = 7#4 ∧ catOf w = 0#4 ∧ cOf w = 0#8 then .command (.writeReg (aOf w) (bOf w))
    else if opcOf w = 8#4 ∧ catOf w = 0#4 then .command (.setBits (aOf w) (bOf w) (cOf w))
    else if opcOf w = 9#4 ∧ catOf w = 0#4 ∧ cOf w = 0#8 then .command (.pinMode (aOf w) (bOf w))
    else if opcOf w = 10#4 ∧ catOf w = 0#4 ∧ cOf w = 0#8 then .command (.portMode (aOf w) (bOf w))
    else if opcOf w = 11#4 ∧ catOf w = 0#4 ∧ cOf w = 0#8 then .command (.digitalWrite (aOf w) (bOf w))
    else if opcOf w = 12#4 ∧ catOf w = 0#4 ∧ bOf w = 0#8 ∧ cOf w = 0#8 then .command (.digitalRead (aOf w))
    else if opcOf w = 13#4 ∧ catOf w = 0#4 ∧ cOf w = 0#8 then .command (.portWrite (aOf w) (bOf w))
    else if opcOf w = 14#4 ∧ catOf w = 0#4 ∧ bOf w = 0#8 ∧ cOf w = 0#8 then .command (.portRead (aOf w))
    else if opcOf w = 15#4 ∧ catOf w = 1#4 ∧ cOf w = 0#8 then .command (.setPolarity (aOf w) (bOf w))
    else if opcOf w = 15#4 ∧ catOf w = 2#4 ∧ cOf w = 0#8 then .command (.setInterrupt (aOf w) (bOf w))
    else if opcOf w = 15#4 ∧ catOf w = 6#4 ∧ cOf w = 0#8 then .command (.setPullup (aOf w) (bOf w))
    else .illegal (illegalReason w) := by
  show answerOf w (opcodeTable.find? (fun r => r.hits w)) = _
  simp only [opcodeTable, answerOf_cons, hits_BEGIN, hits_RESOLVE, hits_BITMASK, hits_INSERT, hits_EXTRACT, hits_READ_REG,
    hits_WRITE_REG, hits_SET_BITS, hits_PIN_MODE, hits_PORT_MODE, hits_DIGITAL_WRITE, hits_DIGITAL_READ,
    hits_PORT_WRITE, hits_PORT_READ, hits_SET_POLARITY, hits_SET_INTERRUPT, hits_SET_PULLUP,
    decide_eq_true_eq, commandOf, answerOf_nil]

end Sys2Proof
end

