-- ==== Sys2Proof/Laws/Memory.lean ====
section
/-! SUPPORT. The laws of the device register space: read after write, and that every write keeps the
canonical form. -/

namespace Sys2Proof.Machine.Memory

theorem read_consCell_same (a : Nat) (v : Byte) (m : Memory) (hm : m.all (fun c => a < c.1) = true) :
    read (consCell a v m) a = v := by
  unfold consCell
  split
  next hv =>
    subst hv
    induction m with
    | nil => rfl
    | cons c m ih =>
      simp only [List.all_cons, Bool.and_eq_true, decide_eq_true_eq] at hm
      simp only [read]
      rw [if_neg (by omega)]
      exact ih hm.2
  next => simp [read]

theorem read_consCell_other (a b : Nat) (v : Byte) (m : Memory) (h : b ≠ a) :
    read (consCell a v m) b = read m b := by
  unfold consCell
  split
  next => rfl
  next => simp [read, Ne.symm h]

theorem all_gt_trans {a b : Nat} {m : Memory} (h : a < b) (hm : m.all (fun c => b < c.1) = true) :
    m.all (fun c => a < c.1) = true := by
  simp only [List.all_eq_true, decide_eq_true_eq] at hm ⊢
  intro c hc
  exact Nat.lt_trans h (hm c hc)

theorem wf_cons (a : Nat) (v : Byte) (m : Memory) :
    wf ((a, v) :: m) = true ↔ definedOffset a = true ∧ v ≠ unlisted ∧
      m.all (fun c => a < c.1) = true ∧ wf m = true := by
  simp [wf, and_assoc]

theorem wf_consCell {a : Nat} {v : Byte} {m : Memory} (ha : definedOffset a = true)
    (hm : m.all (fun c => a < c.1) = true) (hw : wf m = true) : wf (consCell a v m) = true := by
  unfold consCell
  split
  next => exact hw
  next hv => exact (wf_cons a v m).2 ⟨ha, hv, hm, hw⟩

theorem all_write {a b : Nat} {v : Byte} {m : Memory} (hb : b < a)
    (hm : m.all (fun c => b < c.1) = true) : (write m a v).all (fun c => b < c.1) = true := by
  induction m with
  | nil =>
    unfold write consCell
    split <;> simp [hb]
  | cons c m ih =>
    obtain ⟨x, y⟩ := c
    simp only [List.all_cons, Bool.and_eq_true, decide_eq_true_eq] at hm
    unfold write
    split
    · unfold consCell
      split <;> simp [hb, hm.1, hm.2]
    · split
      · unfold consCell
        split <;> simp [hb, hm.2]
      · simp only [List.all_cons, Bool.and_eq_true, decide_eq_true_eq]
        exact ⟨hm.1, ih hm.2⟩

/-- A write at a defined offset keeps the canonical form. -/
theorem write_keeps_wf {m : Memory} {a : Nat} {v : Byte} (ha : definedOffset a = true)
    (hw : wf m = true) : wf (write m a v) = true := by
  induction m with
  | nil => exact wf_consCell ha rfl rfl
  | cons c m ih =>
    obtain ⟨b, x⟩ := c
    obtain ⟨hb, hx, hgt, hm⟩ := (wf_cons b x m).1 hw
    unfold write
    split
    next h =>
      refine wf_consCell ha ?_ hw
      simp only [List.all_cons, Bool.and_eq_true, decide_eq_true_eq]
      exact ⟨h, all_gt_trans h hgt⟩
    next h =>
      split
      next h' => subst h'; exact wf_consCell ha hgt hm
      next h' =>
        exact (wf_cons b x _).2 ⟨hb, hx, all_write (by omega) hgt, ih hm⟩

/-- A read at the written offset gives the value written. -/
theorem read_write_same {m : Memory} (a : Nat) (v : Byte) (hw : wf m = true) :
    read (write m a v) a = v := by
  induction m with
  | nil => exact read_consCell_same a v [] rfl
  | cons c m ih =>
    obtain ⟨b, x⟩ := c
    obtain ⟨-, -, hgt, hm⟩ := (wf_cons b x m).1 hw
    unfold write
    split
    next h =>
      refine read_consCell_same a v _ ?_
      simp only [List.all_cons, Bool.and_eq_true, decide_eq_true_eq]
      exact ⟨h, all_gt_trans h hgt⟩
    next h =>
      split
      next h' => subst h'; exact read_consCell_same a v m hgt
      next h' =>
        simp only [read]
        rw [if_neg (by omega)]
        exact ih hm

/-- A write leaves every other offset alone. -/
theorem read_write_other {m : Memory} (a b : Nat) (v : Byte) (h : b ≠ a) :
    read (write m a v) b = read m b := by
  induction m with
  | nil => exact read_consCell_other a b v [] h
  | cons c m ih =>
    obtain ⟨x, y⟩ := c
    unfold write
    split
    next => exact read_consCell_other a b v _ h
    next =>
      split
      next h' =>
        subst h'
        rw [read_consCell_other a b v m h]
        simp [read, Ne.symm h]
      next => simp only [read, ih]

/-- The empty register space is in canonical form. -/
theorem wf_nil : wf [] = true := rfl

end Sys2Proof.Machine.Memory
end

