-- ==== Sys2Proof/Laws/State.lean ====
section
/-! SUPPORT. One lemma per field per update of State, so that no later proof unfolds a record update. -/

namespace Sys2Proof.Machine.State

/-! ### `record`: An event is recorded: the trace alone changes. -/

@[simp] theorem record_busAddr (s : State) (e : Event) : (s.record e).busAddr = s.busAddr := rfl

@[simp] theorem record_seq (s : State) (e : Event) : (s.record e).seq = s.seq := rfl

@[simp] theorem record_latchN (s : State) (e : Event) : (s.record e).latchN = s.latchN := rfl

@[simp] theorem record_response (s : State) (e : Event) : (s.record e).response = s.response := rfl

@[simp] theorem record_device (s : State) (e : Event) : (s.record e).device = s.device := rfl

@[simp] theorem record_params (s : State) (e : Event) : (s.record e).params = s.params := rfl

@[simp] theorem record_host (s : State) (e : Event) : (s.record e).host = s.host := rfl

@[simp] theorem record_agenda (s : State) (e : Event) : (s.record e).agenda = s.agenda := rfl

@[simp] theorem record_acks (s : State) (e : Event) : (s.record e).acks = s.acks := rfl

@[simp] theorem record_replies (s : State) (e : Event) : (s.record e).replies = s.replies := rfl

@[simp] theorem record_acceptDraws (s : State) (e : Event) : (s.record e).acceptDraws = s.acceptDraws := rfl

@[simp] theorem record_replyDraws (s : State) (e : Event) : (s.record e).replyDraws = s.replyDraws := rfl

@[simp] theorem record_trace (s : State) (e : Event) : (s.record e).trace = s.trace ++ [e] := rfl

/-! ### `deliver`: A response is delivered (R27). -/

@[simp] theorem deliver_busAddr (s : State) (st : Status) (v : Byte) : (s.deliver st v).busAddr = s.busAddr := rfl

@[simp] theorem deliver_seq (s : State) (st : Status) (v : Byte) : (s.deliver st v).seq = .idle := rfl

@[simp] theorem deliver_latchN (s : State) (st : Status) (v : Byte) : (s.deliver st v).latchN = s.latchN := rfl

@[simp] theorem deliver_response (s : State) (st : Status) (v : Byte) : (s.deliver st v).response = some ⟨st, v⟩ := rfl

@[simp] theorem deliver_device (s : State) (st : Status) (v : Byte) : (s.deliver st v).device = s.device := rfl

@[simp] theorem deliver_params (s : State) (st : Status) (v : Byte) : (s.deliver st v).params = s.params := rfl

@[simp] theorem deliver_host (s : State) (st : Status) (v : Byte) : (s.deliver st v).host = s.host := rfl

@[simp] theorem deliver_agenda (s : State) (st : Status) (v : Byte) : (s.deliver st v).agenda = s.agenda := rfl

@[simp] theorem deliver_acks (s : State) (st : Status) (v : Byte) : (s.deliver st v).acks = s.acks := rfl

@[simp] theorem deliver_replies (s : State) (st : Status) (v : Byte) : (s.deliver st v).replies = s.replies := rfl

@[simp] theorem deliver_acceptDraws (s : State) (st : Status) (v : Byte) : (s.deliver st v).acceptDraws = s.acceptDraws := rfl

@[simp] theorem deliver_replyDraws (s : State) (st : Status) (v : Byte) : (s.deliver st v).replyDraws = s.replyDraws := rfl

@[simp] theorem deliver_trace (s : State) (st : Status) (v : Byte) : (s.deliver st v).trace = s.trace ++ [.response st v] := rfl

/-! ### `accept`: A command is accepted (R26). -/

@[simp] theorem accept_busAddr (s : State) (cmd : Word) : (s.accept cmd).busAddr = s.busAddr := rfl

@[simp] theorem accept_seq (s : State) (cmd : Word) : (s.accept cmd).seq = .busy cmd 0 := rfl

@[simp] theorem accept_latchN (s : State) (cmd : Word) : (s.accept cmd).latchN = s.latchN := rfl

@[simp] theorem accept_response (s : State) (cmd : Word) : (s.accept cmd).response = none := rfl

@[simp] theorem accept_device (s : State) (cmd : Word) : (s.accept cmd).device = s.device := rfl

@[simp] theorem accept_params (s : State) (cmd : Word) : (s.accept cmd).params = s.params := rfl

@[simp] theorem accept_host (s : State) (cmd : Word) : (s.accept cmd).host = s.host := rfl

@[simp] theorem accept_agenda (s : State) (cmd : Word) : (s.accept cmd).agenda = s.agenda := rfl

@[simp] theorem accept_acks (s : State) (cmd : Word) : (s.accept cmd).acks = s.acks := rfl

@[simp] theorem accept_replies (s : State) (cmd : Word) : (s.accept cmd).replies = s.replies := rfl

@[simp] theorem accept_acceptDraws (s : State) (cmd : Word) : (s.accept cmd).acceptDraws = s.acceptDraws := rfl

@[simp] theorem accept_replyDraws (s : State) (cmd : Word) : (s.accept cmd).replyDraws = s.replyDraws := rfl

@[simp] theorem accept_trace (s : State) (cmd : Word) : (s.accept cmd).trace = s.trace := rfl

/-! ### `advance`: SEQ goes on (R25). -/

@[simp] theorem advance_busAddr (s : State) : (s.advance).busAddr = s.busAddr := by unfold State.advance; split <;> rfl

@[simp] theorem advance_latchN (s : State) : (s.advance).latchN = s.latchN := by unfold State.advance; split <;> rfl

@[simp] theorem advance_response (s : State) : (s.advance).response = s.response := by unfold State.advance; split <;> rfl

@[simp] theorem advance_device (s : State) : (s.advance).device = s.device := by unfold State.advance; split <;> rfl

@[simp] theorem advance_params (s : State) : (s.advance).params = s.params := by unfold State.advance; split <;> rfl

@[simp] theorem advance_host (s : State) : (s.advance).host = s.host := by unfold State.advance; split <;> rfl

@[simp] theorem advance_agenda (s : State) : (s.advance).agenda = s.agenda := by unfold State.advance; split <;> rfl

@[simp] theorem advance_acks (s : State) : (s.advance).acks = s.acks := by unfold State.advance; split <;> rfl

@[simp] theorem advance_replies (s : State) : (s.advance).replies = s.replies := by unfold State.advance; split <;> rfl

@[simp] theorem advance_acceptDraws (s : State) : (s.advance).acceptDraws = s.acceptDraws := by unfold State.advance; split <;> rfl

@[simp] theorem advance_replyDraws (s : State) : (s.advance).replyDraws = s.replyDraws := by unfold State.advance; split <;> rfl

@[simp] theorem advance_trace (s : State) : (s.advance).trace = s.trace := by unfold State.advance; split <;> rfl

/-! ### `takeAccept`: A write frame's draw is used up (R46). -/

@[simp] theorem takeAccept_busAddr (s : State) : (s.takeAccept).busAddr = s.busAddr := by unfold State.takeAccept; split <;> rfl

@[simp] theorem takeAccept_seq (s : State) : (s.takeAccept).seq = s.seq := by unfold State.takeAccept; split <;> rfl

@[simp] theorem takeAccept_latchN (s : State) : (s.takeAccept).latchN = s.latchN := by unfold State.takeAccept; split <;> rfl

@[simp] theorem takeAccept_response (s : State) : (s.takeAccept).response = s.response := by unfold State.takeAccept; split <;> rfl

@[simp] theorem takeAccept_device (s : State) : (s.takeAccept).device = s.device := by unfold State.takeAccept; split <;> rfl

@[simp] theorem takeAccept_params (s : State) : (s.takeAccept).params = s.params := by unfold State.takeAccept; split <;> rfl

@[simp] theorem takeAccept_host (s : State) : (s.takeAccept).host = s.host := by unfold State.takeAccept; split <;> rfl

@[simp] theorem takeAccept_agenda (s : State) : (s.takeAccept).agenda = s.agenda := by unfold State.takeAccept; split <;> rfl

@[simp] theorem takeAccept_replies (s : State) : (s.takeAccept).replies = s.replies := by unfold State.takeAccept; split <;> rfl

@[simp] theorem takeAccept_replyDraws (s : State) : (s.takeAccept).replyDraws = s.replyDraws := by unfold State.takeAccept; split <;> rfl

@[simp] theorem takeAccept_trace (s : State) : (s.takeAccept).trace = s.trace := by unfold State.takeAccept; split <;> rfl

/-! ### `takeReply`: A read frame's draw is used up (R47). -/

@[simp] theorem takeReply_busAddr (s : State) : (s.takeReply).busAddr = s.busAddr := by unfold State.takeReply; split <;> rfl

@[simp] theorem takeReply_seq (s : State) : (s.takeReply).seq = s.seq := by unfold State.takeReply; split <;> rfl

@[simp] theorem takeReply_latchN (s : State) : (s.takeReply).latchN = s.latchN := by unfold State.takeReply; split <;> rfl

@[simp] theorem takeReply_response (s : State) : (s.takeReply).response = s.response := by unfold State.takeReply; split <;> rfl

@[simp] theorem takeReply_device (s : State) : (s.takeReply).device = s.device := by unfold State.takeReply; split <;> rfl

@[simp] theorem takeReply_params (s : State) : (s.takeReply).params = s.params := by unfold State.takeReply; split <;> rfl

@[simp] theorem takeReply_host (s : State) : (s.takeReply).host = s.host := by unfold State.takeReply; split <;> rfl

@[simp] theorem takeReply_agenda (s : State) : (s.takeReply).agenda = s.agenda := by unfold State.takeReply; split <;> rfl

@[simp] theorem takeReply_acks (s : State) : (s.takeReply).acks = s.acks := by unfold State.takeReply; split <;> rfl

@[simp] theorem takeReply_acceptDraws (s : State) : (s.takeReply).acceptDraws = s.acceptDraws := by unfold State.takeReply; split <;> rfl

@[simp] theorem takeReply_trace (s : State) : (s.takeReply).trace = s.trace := by unfold State.takeReply; split <;> rfl

/-! ### `setBusAddr`: BUSADDR is written (R191). -/

@[simp] theorem setBusAddr_busAddr (s : State) (a : BusAddress) : (s.setBusAddr a).busAddr = validBusAddr a := rfl

@[simp] theorem setBusAddr_seq (s : State) (a : BusAddress) : (s.setBusAddr a).seq = s.seq := rfl

@[simp] theorem setBusAddr_latchN (s : State) (a : BusAddress) : (s.setBusAddr a).latchN = s.latchN := rfl

@[simp] theorem setBusAddr_response (s : State) (a : BusAddress) : (s.setBusAddr a).response = s.response := rfl

@[simp] theorem setBusAddr_device (s : State) (a : BusAddress) : (s.setBusAddr a).device = s.device := rfl

@[simp] theorem setBusAddr_params (s : State) (a : BusAddress) : (s.setBusAddr a).params = s.params := rfl

@[simp] theorem setBusAddr_host (s : State) (a : BusAddress) : (s.setBusAddr a).host = s.host := rfl

@[simp] theorem setBusAddr_agenda (s : State) (a : BusAddress) : (s.setBusAddr a).agenda = s.agenda := rfl

@[simp] theorem setBusAddr_acks (s : State) (a : BusAddress) : (s.setBusAddr a).acks = s.acks := rfl

@[simp] theorem setBusAddr_replies (s : State) (a : BusAddress) : (s.setBusAddr a).replies = s.replies := rfl

@[simp] theorem setBusAddr_acceptDraws (s : State) (a : BusAddress) : (s.setBusAddr a).acceptDraws = s.acceptDraws := rfl

@[simp] theorem setBusAddr_replyDraws (s : State) (a : BusAddress) : (s.setBusAddr a).replyDraws = s.replyDraws := rfl

@[simp] theorem setBusAddr_trace (s : State) (a : BusAddress) : (s.setBusAddr a).trace = s.trace := rfl

/-! ### `deviceSet`: A device register is written (R48, R49). -/

@[simp] theorem deviceSet_busAddr (s : State) (r v : Byte) : (s.deviceSet r v).busAddr = s.busAddr := by unfold State.deviceSet; split <;> rfl

@[simp] theorem deviceSet_seq (s : State) (r v : Byte) : (s.deviceSet r v).seq = s.seq := by unfold State.deviceSet; split <;> rfl

@[simp] theorem deviceSet_latchN (s : State) (r v : Byte) : (s.deviceSet r v).latchN = s.latchN := by unfold State.deviceSet; split <;> rfl

@[simp] theorem deviceSet_response (s : State) (r v : Byte) : (s.deviceSet r v).response = s.response := by unfold State.deviceSet; split <;> rfl

@[simp] theorem deviceSet_params (s : State) (r v : Byte) : (s.deviceSet r v).params = s.params := by unfold State.deviceSet; split <;> rfl

@[simp] theorem deviceSet_host (s : State) (r v : Byte) : (s.deviceSet r v).host = s.host := by unfold State.deviceSet; split <;> rfl

@[simp] theorem deviceSet_agenda (s : State) (r v : Byte) : (s.deviceSet r v).agenda = s.agenda := by unfold State.deviceSet; split <;> rfl

@[simp] theorem deviceSet_acks (s : State) (r v : Byte) : (s.deviceSet r v).acks = s.acks := by unfold State.deviceSet; split <;> rfl

@[simp] theorem deviceSet_replies (s : State) (r v : Byte) : (s.deviceSet r v).replies = s.replies := by unfold State.deviceSet; split <;> rfl

@[simp] theorem deviceSet_acceptDraws (s : State) (r v : Byte) : (s.deviceSet r v).acceptDraws = s.acceptDraws := by unfold State.deviceSet; split <;> rfl

@[simp] theorem deviceSet_replyDraws (s : State) (r v : Byte) : (s.deviceSet r v).replyDraws = s.replyDraws := by unfold State.deviceSet; split <;> rfl

@[simp] theorem deviceSet_trace (s : State) (r v : Byte) : (s.deviceSet r v).trace = s.trace := by unfold State.deviceSet; split <;> rfl

/-! ### `takeCommand`: The host's next command is taken (R26). -/

@[simp] theorem takeCommand_busAddr (s : State) : (s.takeCommand).busAddr = s.busAddr := rfl

@[simp] theorem takeCommand_seq (s : State) : (s.takeCommand).seq = s.seq := rfl

@[simp] theorem takeCommand_latchN (s : State) : (s.takeCommand).latchN = s.latchN := rfl

@[simp] theorem takeCommand_response (s : State) : (s.takeCommand).response = s.response := rfl

@[simp] theorem takeCommand_device (s : State) : (s.takeCommand).device = s.device := rfl

@[simp] theorem takeCommand_params (s : State) : (s.takeCommand).params = s.params := rfl

@[simp] theorem takeCommand_host (s : State) : (s.takeCommand).host = s.host.tail := rfl

@[simp] theorem takeCommand_agenda (s : State) : (s.takeCommand).agenda = s.agenda := rfl

@[simp] theorem takeCommand_acks (s : State) : (s.takeCommand).acks = s.acks := rfl

@[simp] theorem takeCommand_replies (s : State) : (s.takeCommand).replies = s.replies := rfl

@[simp] theorem takeCommand_acceptDraws (s : State) : (s.takeCommand).acceptDraws = s.acceptDraws := rfl

@[simp] theorem takeCommand_replyDraws (s : State) : (s.takeCommand).replyDraws = s.replyDraws := rfl

@[simp] theorem takeCommand_trace (s : State) : (s.takeCommand).trace = s.trace := rfl

@[simp] theorem takeAccept_acks (s : State) : s.takeAccept.acks = s.acks.tail := by
  unfold takeAccept
  split <;> simp_all

@[simp] theorem takeAccept_acceptDraws (s : State) :
    s.takeAccept.acceptDraws = s.acceptDraws + s.acks.isEmpty.toNat := by
  unfold takeAccept
  split <;> simp_all

@[simp] theorem takeReply_replies (s : State) : s.takeReply.replies = s.replies.tail := by
  unfold takeReply
  split <;> simp_all

@[simp] theorem takeReply_replyDraws (s : State) :
    s.takeReply.replyDraws = s.replyDraws + s.replies.isEmpty.toNat := by
  unfold takeReply
  split <;> simp_all

/-! ### What is computed from fields the updates leave alone -/

@[simp] theorem record_valid (s : State) (e : Event) : (s.record e).valid = s.valid := rfl
@[simp] theorem record_addr (s : State) (e : Event) : (s.record e).addr = s.addr := rfl
@[simp] theorem deliver_valid (s : State) (st : Status) (v : Byte) : (s.deliver st v).valid = s.valid := rfl
@[simp] theorem deliver_addr (s : State) (st : Status) (v : Byte) : (s.deliver st v).addr = s.addr := rfl
@[simp] theorem accept_valid (s : State) (w : Word) : (s.accept w).valid = s.valid := rfl
@[simp] theorem accept_addr (s : State) (w : Word) : (s.accept w).addr = s.addr := rfl
@[simp] theorem takeCommand_valid (s : State) : s.takeCommand.valid = s.valid := rfl
@[simp] theorem takeCommand_addr (s : State) : s.takeCommand.addr = s.addr := rfl
@[simp] theorem advance_valid (s : State) : s.advance.valid = s.valid := by simp [valid]
@[simp] theorem advance_addr (s : State) : s.advance.addr = s.addr := by simp [addr]
@[simp] theorem takeAccept_valid (s : State) : s.takeAccept.valid = s.valid := by simp [valid]
@[simp] theorem takeAccept_addr (s : State) : s.takeAccept.addr = s.addr := by simp [addr]
@[simp] theorem takeReply_valid (s : State) : s.takeReply.valid = s.valid := by simp [valid]
@[simp] theorem takeReply_addr (s : State) : s.takeReply.addr = s.addr := by simp [addr]
@[simp] theorem deviceSet_valid (s : State) (r v : Byte) : (s.deviceSet r v).valid = s.valid := by
  simp [valid]
@[simp] theorem deviceSet_addr (s : State) (r v : Byte) : (s.deviceSet r v).addr = s.addr := by
  simp [addr]

@[simp] theorem setBusAddr_valid (s : State) (a : BusAddress) : (s.setBusAddr a).valid = true := by
  simp only [valid, setBusAddr, validBusAddr]
  revert a
  decide

@[simp] theorem setBusAddr_addr (s : State) (a : BusAddress) : (s.setBusAddr a).addr = a := by
  simp only [addr, setBusAddr, validBusAddr]
  revert a
  decide

theorem advance_seq_busy (s : State) (w : Word) (k : Nat) (h : s.seq = .busy w k) :
    s.advance.seq = .busy w (k + 1) := by simp [advance, h]

theorem advance_seq_idle (s : State) (h : s.seq = .idle) : s.advance = s := by simp [advance, h]

/-- The draw of a write frame is at most the frame's length (R46). -/
theorem nextAccept_le (s : State) (len : Nat) : s.nextAccept len ≤ len := by
  unfold nextAccept
  split <;> exact Nat.min_le_right _ _

/-- Any count up to the frame's length is a draw (R46, I18). -/
theorem nextAccept_queued (s : State) (k len : Nat) (rest : List Nat) (h : s.acks = k :: rest) :
    s.nextAccept len = min k len := by simp [nextAccept, h]

theorem nextAccept_congr (s t : State) (h : t.acks = s.acks) (hd : t.acceptDraws = s.acceptDraws)
    (len : Nat) : t.nextAccept len = s.nextAccept len := by simp [nextAccept, h, hd]

theorem nextReply_congr (s t : State) (h : t.replies = s.replies) (hd : t.replyDraws = s.replyDraws) :
    t.nextReply = s.nextReply := by simp [nextReply, h, hd]

theorem readOutcome_congr (s t : State) (r : Byte) (h : t.replies = s.replies)
    (hd : t.replyDraws = s.replyDraws) (hp : t.params = s.params) (hm : t.device = s.device) :
    t.readOutcome r = s.readOutcome r := by
  simp [readOutcome, nextReply_congr s t h hd, hp, hm]

@[simp] theorem accept_nextAccept (s : State) (w : Word) (len : Nat) :
    (s.accept w).nextAccept len = s.nextAccept len := rfl

@[simp] theorem takeReply_nextAccept (s : State) (len : Nat) :
    s.takeReply.nextAccept len = s.nextAccept len :=
  nextAccept_congr _ _ (by simp) (by simp) _

@[simp] theorem takeAccept_readOutcome (s : State) (r : Byte) :
    s.takeAccept.readOutcome r = s.readOutcome r :=
  readOutcome_congr _ _ _ (by simp) (by simp) (by simp) (by simp)

/-! ### `addressFrame`: the frame's draw is used up and the frame recorded (R46). -/

@[simp] theorem addressFrame_busAddr (s : State) (r : Byte) : (s.addressFrame r).busAddr = s.busAddr := by simp [addressFrame]

@[simp] theorem addressFrame_seq (s : State) (r : Byte) : (s.addressFrame r).seq = s.seq := by simp [addressFrame]

@[simp] theorem addressFrame_latchN (s : State) (r : Byte) : (s.addressFrame r).latchN = s.latchN := by simp [addressFrame]

@[simp] theorem addressFrame_response (s : State) (r : Byte) : (s.addressFrame r).response = s.response := by simp [addressFrame]

@[simp] theorem addressFrame_device (s : State) (r : Byte) : (s.addressFrame r).device = s.device := by simp [addressFrame]

@[simp] theorem addressFrame_params (s : State) (r : Byte) : (s.addressFrame r).params = s.params := by simp [addressFrame]

@[simp] theorem addressFrame_host (s : State) (r : Byte) : (s.addressFrame r).host = s.host := by simp [addressFrame]

@[simp] theorem addressFrame_agenda (s : State) (r : Byte) : (s.addressFrame r).agenda = s.agenda := by simp [addressFrame]

@[simp] theorem addressFrame_acks (s : State) (r : Byte) : (s.addressFrame r).acks = s.takeAccept.acks := by simp [addressFrame]

@[simp] theorem addressFrame_replies (s : State) (r : Byte) : (s.addressFrame r).replies = s.replies := by simp [addressFrame]

@[simp] theorem addressFrame_acceptDraws (s : State) (r : Byte) : (s.addressFrame r).acceptDraws = s.takeAccept.acceptDraws := by simp [addressFrame]

@[simp] theorem addressFrame_replyDraws (s : State) (r : Byte) : (s.addressFrame r).replyDraws = s.replyDraws := by simp [addressFrame]

@[simp] theorem addressFrame_trace (s : State) (r : Byte) : (s.addressFrame r).trace = s.trace ++ [.writeFrame s.addr [r] (s.nextAccept 1)] := by simp [addressFrame]

@[simp] theorem addressFrame_valid (s : State) (r : Byte) : (s.addressFrame r).valid = s.valid := by simp [addressFrame]

@[simp] theorem addressFrame_addr (s : State) (r : Byte) : (s.addressFrame r).addr = s.addr := by simp [addressFrame]

/-! ### `readFrame`: the frame's draw is used up and the frame recorded (R47). -/

@[simp] theorem readFrame_busAddr (s : State) (r : Byte) : (s.readFrame r).busAddr = s.busAddr := by simp [readFrame]

@[simp] theorem readFrame_seq (s : State) (r : Byte) : (s.readFrame r).seq = s.seq := by simp [readFrame]

@[simp] theorem readFrame_latchN (s : State) (r : Byte) : (s.readFrame r).latchN = s.latchN := by simp [readFrame]

@[simp] theorem readFrame_response (s : State) (r : Byte) : (s.readFrame r).response = s.response := by simp [readFrame]

@[simp] theorem readFrame_device (s : State) (r : Byte) : (s.readFrame r).device = s.device := by simp [readFrame]

@[simp] theorem readFrame_params (s : State) (r : Byte) : (s.readFrame r).params = s.params := by simp [readFrame]

@[simp] theorem readFrame_host (s : State) (r : Byte) : (s.readFrame r).host = s.host := by simp [readFrame]

@[simp] theorem readFrame_agenda (s : State) (r : Byte) : (s.readFrame r).agenda = s.agenda := by simp [readFrame]

@[simp] theorem readFrame_acks (s : State) (r : Byte) : (s.readFrame r).acks = s.acks := by simp [readFrame]

@[simp] theorem readFrame_replies (s : State) (r : Byte) : (s.readFrame r).replies = s.takeReply.replies := by simp [readFrame]

@[simp] theorem readFrame_acceptDraws (s : State) (r : Byte) : (s.readFrame r).acceptDraws = s.acceptDraws := by simp [readFrame]

@[simp] theorem readFrame_replyDraws (s : State) (r : Byte) : (s.readFrame r).replyDraws = s.takeReply.replyDraws := by simp [readFrame]

@[simp] theorem readFrame_trace (s : State) (r : Byte) : (s.readFrame r).trace = s.trace ++ [.readFrame s.addr (s.readOutcome r)] := by simp [readFrame]

@[simp] theorem readFrame_valid (s : State) (r : Byte) : (s.readFrame r).valid = s.valid := by simp [readFrame]

@[simp] theorem readFrame_addr (s : State) (r : Byte) : (s.readFrame r).addr = s.addr := by simp [readFrame]

/-! ### `valueFrame`: the frame's draw is used up and the frame recorded (R46). -/

@[simp] theorem valueFrame_busAddr (s : State) (r v : Byte) : (s.valueFrame r v).busAddr = s.busAddr := by
  simp only [valueFrame]; split <;> simp

@[simp] theorem valueFrame_seq (s : State) (r v : Byte) : (s.valueFrame r v).seq = s.seq := by
  simp only [valueFrame]; split <;> simp

@[simp] theorem valueFrame_latchN (s : State) (r v : Byte) : (s.valueFrame r v).latchN = s.latchN := by
  simp only [valueFrame]; split <;> simp

@[simp] theorem valueFrame_response (s : State) (r v : Byte) : (s.valueFrame r v).response = s.response := by
  simp only [valueFrame]; split <;> simp

@[simp] theorem valueFrame_params (s : State) (r v : Byte) : (s.valueFrame r v).params = s.params := by
  simp only [valueFrame]; split <;> simp

@[simp] theorem valueFrame_host (s : State) (r v : Byte) : (s.valueFrame r v).host = s.host := by
  simp only [valueFrame]; split <;> simp

@[simp] theorem valueFrame_agenda (s : State) (r v : Byte) : (s.valueFrame r v).agenda = s.agenda := by
  simp only [valueFrame]; split <;> simp

@[simp] theorem valueFrame_acks (s : State) (r v : Byte) : (s.valueFrame r v).acks = s.takeAccept.acks := by
  simp only [valueFrame]; split <;> simp

@[simp] theorem valueFrame_replies (s : State) (r v : Byte) : (s.valueFrame r v).replies = s.replies := by
  simp only [valueFrame]; split <;> simp

@[simp] theorem valueFrame_acceptDraws (s : State) (r v : Byte) : (s.valueFrame r v).acceptDraws = s.takeAccept.acceptDraws := by
  simp only [valueFrame]; split <;> simp

@[simp] theorem valueFrame_replyDraws (s : State) (r v : Byte) : (s.valueFrame r v).replyDraws = s.replyDraws := by
  simp only [valueFrame]; split <;> simp

@[simp] theorem valueFrame_trace (s : State) (r v : Byte) : (s.valueFrame r v).trace = s.trace ++ [.writeFrame s.addr [r, v] (s.nextAccept 2)] := by
  simp only [valueFrame]; split <;> simp

@[simp] theorem valueFrame_valid (s : State) (r v : Byte) : (s.valueFrame r v).valid = s.valid := by
  simp only [valueFrame]; split <;> simp

@[simp] theorem valueFrame_addr (s : State) (r v : Byte) : (s.valueFrame r v).addr = s.addr := by
  simp only [valueFrame]; split <;> simp

/-- The device takes the value iff both bytes were accepted (R49, D21). -/
theorem valueFrame_device (s : State) (r v : Byte) :
    (s.valueFrame r v).device = if s.nextAccept 2 = 2 then s.deviceAfter r v else s.device := by
  simp only [valueFrame]
  split
  · simp only [deviceSet, deviceAfter]
    split <;> simp_all
  · simp

theorem deviceAfter_oracle (s : State) (r v : Byte) (h : s.params.deviceModel = .oracle) :
    s.deviceAfter r v = s.device := by simp [deviceAfter, h]

theorem deviceAfter_memory (s : State) (r v : Byte) (h : s.params.deviceModel = .memory) :
    s.deviceAfter r v = s.device.write r.toNat v := by simp [deviceAfter, h]

/-- What `deviceSet` leaves in the register space (R48, R49). -/
theorem deviceSet_device (s : State) (r v : Byte) : (s.deviceSet r v).device = s.deviceAfter r v := by
  simp only [deviceSet, deviceAfter]
  split <;> simp_all

end Sys2Proof.Machine.State
end

