-- ==== Sys2Proof/Laws/Exec.lean ====
section
/-! SUPPORT. One spec lemma for `exec`: what a step of any command is, in terms of the command's checks
and micro-operation list, and what each micro-operation leaves unchanged. -/

namespace Sys2Proof.Machine

/-- The index of the micro-operation SEQ is at; a command not yet accepted is at its first. -/
def State.microIndex (s : State) : Nat :=
  match s.seq with
  | .idle => 0
  | .busy _ k => k

/-- The state in which a step of a command with word `w` runs: accepted if SEQ = IDLE. -/
def State.begun (s : State) (w : Word) : State :=
  match s.seq with
  | .idle => s.accept w
  | .busy _ _ => s

theorem State.microIndex_idle {s : State} (h : s.seq = .idle) : s.microIndex = 0 := by
  simp [microIndex, h]
theorem State.microIndex_busy {s : State} {w : Word} {k : Nat} (h : s.seq = .busy w k) :
    s.microIndex = k := by simp [microIndex, h]
theorem State.begun_idle {s : State} (h : s.seq = .idle) (w : Word) : s.begun w = s.accept w := by
  simp [begun, h]
theorem State.begun_busy {s : State} {w : Word} {k : Nat} (h : s.seq = .busy w k) (v : Word) :
    s.begun v = s := by simp [begun, h]

section
variable (s : State) (w : Word)
@[simp] theorem State.begun_busAddr : (s.begun w).busAddr = s.busAddr := by
  unfold begun; split <;> rfl
@[simp] theorem State.begun_latchN : (s.begun w).latchN = s.latchN := by
  unfold begun; split <;> rfl
@[simp] theorem State.begun_device : (s.begun w).device = s.device := by
  unfold begun; split <;> rfl
@[simp] theorem State.begun_params : (s.begun w).params = s.params := by
  unfold begun; split <;> rfl
@[simp] theorem State.begun_host : (s.begun w).host = s.host := by
  unfold begun; split <;> rfl
@[simp] theorem State.begun_agenda : (s.begun w).agenda = s.agenda := by
  unfold begun; split <;> rfl
@[simp] theorem State.begun_acks : (s.begun w).acks = s.acks := by
  unfold begun; split <;> rfl
@[simp] theorem State.begun_replies : (s.begun w).replies = s.replies := by
  unfold begun; split <;> rfl
@[simp] theorem State.begun_acceptDraws : (s.begun w).acceptDraws = s.acceptDraws := by
  unfold begun; split <;> rfl
@[simp] theorem State.begun_replyDraws : (s.begun w).replyDraws = s.replyDraws := by
  unfold begun; split <;> rfl
@[simp] theorem State.begun_trace : (s.begun w).trace = s.trace := by
  unfold begun; split <;> rfl
@[simp] theorem State.begun_valid : (s.begun w).valid = s.valid := by simp [valid]
@[simp] theorem State.begun_addr : (s.begun w).addr = s.addr := by simp [addr]
@[simp] theorem State.begun_nextAccept (len : Nat) : (s.begun w).nextAccept len = s.nextAccept len :=
  State.nextAccept_congr _ _ (by simp) (by simp) _
@[simp] theorem State.begun_readOutcome (r : Byte) : (s.begun w).readOutcome r = s.readOutcome r :=
  State.readOutcome_congr _ _ _ (by simp) (by simp) (by simp) (by simp)
end

/-- Once begun, SEQ is BUSY at the index the step is for. -/
theorem State.begun_seq (s : State) (w : Word) : ∃ v, (s.begun w).seq = .busy v s.microIndex := by
  unfold begun microIndex
  split
  next => exact ⟨w, rfl⟩
  next v k h => exact ⟨v, h⟩

/-- The checks in each meaning are those of `firstError`, and its micro-operations those of
`microOps`. -/
theorem exec_eq_runCommand (i : Instr) (s : State) :
    exec i s = runCommand (encode i) (firstError i s) (microOps i s.latchN) s := by
  cases i
  case beginBus => simp [exec, execBegin, firstError, badRegisterOperand, pinOperand, issuesFrames, microOps]
  case insert => simp [exec, execInsert, firstError, badRegisterOperand, pinOperand, issuesFrames, microOps]
  all_goals
    simp only [exec, execResolve, execBitmask, execExtract, execReadReg, execWriteReg, execSetBits,
      execPinMode, execPortMode, execDigitalWrite, execDigitalRead, execPortWrite, execPortRead,
      execSetPolarity, execSetInterrupt, execSetPullup, pinSet]
    congr 1
    all_goals simp only [firstError, badRegisterOperand, pinOperand, issuesFrames, andThen, regChecks,
      pinChecks, portChecks, checkCat, checkPin, checkPort, checkReg, checkInit, Option.any_some,
      Option.any_none, Bool.and_false, Bool.false_eq_true, Bool.true_and, Bool.false_and]
    all_goals repeat' split
    all_goals simp_all

theorem runCommand_eq (cmd : Word) (check : Option Status) (ops : List MicroOp) (s : State) :
    runCommand cmd check ops s =
      if s.microIndex = 0 then startCommand check ops (s.begun cmd)
      else runMicro ops s.microIndex s := by
  unfold runCommand State.microIndex State.begun
  split <;> simp_all

/-- A step whose checks fail. -/
theorem exec_error {i : Instr} {s : State} {e : Status} (hk : s.microIndex = 0)
    (he : firstError i s = some e) : exec i s = .next ((s.begun (encode i)).raise e) := by
  simp [exec_eq_runCommand, runCommand_eq, hk, he, startCommand]

/-- A step that performs a micro-operation. -/
theorem exec_micro {i : Instr} {s : State} {op : MicroOp}
    (hk : s.microIndex = 0 → firstError i s = none)
    (hop : (microOps i s.latchN)[s.microIndex]? = some op)
    (hf : frameFault op (s.begun (encode i)) = none) :
    exec i s = .next (microStep op (s.begun (encode i))) := by
  rw [exec_eq_runCommand, runCommand_eq]
  split
  next h =>
    rw [h] at hop
    simp [startCommand, hk h, runMicro, hop, hf]
  next h =>
    have hb : s.begun (encode i) = s := by
      unfold State.microIndex at h
      unfold State.begun
      split <;> simp_all
    rw [hb] at hf ⊢
    simp [runMicro, hop, hf]

/-- What a step of a command can do: raise the first failing check, or perform the micro-operation
SEQ is at. -/
theorem exec_cases {i : Instr} {s t : State} (h : exec i s = .next t) :
    (s.microIndex = 0 ∧ ∃ e, firstError i s = some e ∧ t = (s.begun (encode i)).raise e) ∨
    (∃ op, (microOps i s.latchN)[s.microIndex]? = some op ∧
      (s.microIndex = 0 → firstError i s = none) ∧
      frameFault op (s.begun (encode i)) = none ∧ t = microStep op (s.begun (encode i))) := by
  cases hop : (microOps i s.latchN)[s.microIndex]? with
  | none =>
    by_cases hk : s.microIndex = 0
    · cases he : firstError i s with
      | some e => rw [exec_error hk he] at h; cases h; exact .inl ⟨hk, e, rfl, rfl⟩
      | none =>
        rw [hk] at hop
        simp [exec_eq_runCommand, runCommand_eq, hk, he, startCommand, runMicro, hop] at h
    · simp [exec_eq_runCommand, runCommand_eq, hk, runMicro, hop] at h
  | some op =>
    by_cases hk : s.microIndex = 0 → firstError i s = none
    · cases hf : frameFault op (s.begun (encode i)) with
      | none => rw [exec_micro hk hop hf] at h; cases h; exact .inr ⟨op, rfl, hk, hf, rfl⟩
      | some f =>
        by_cases h0 : s.microIndex = 0
        · rw [h0] at hop
          simp [exec_eq_runCommand, runCommand_eq, h0, hk h0, startCommand, runMicro, hop, hf] at h
        · have hb : s.begun (encode i) = s := by
            unfold State.microIndex at h0
            unfold State.begun
            split <;> simp_all
          rw [hb] at hf
          simp [exec_eq_runCommand, runCommand_eq, h0, runMicro, hop, hf] at h
    · obtain ⟨h0, he⟩ := Classical.not_imp.1 hk
      obtain ⟨e, he⟩ := Option.ne_none_iff_exists'.1 he
      rw [exec_error h0 he] at h
      cases h
      exact .inl ⟨h0, e, he, rfl⟩

/-! ## What a micro-operation does to each part of the state -/

/-- The parameters and the other agents' lists. -/
theorem microStep_others (op : MicroOp) (s : State) :
    (microStep op s).params = s.params ∧ (microStep op s).host = s.host ∧
      (microStep op s).agenda = s.agenda := by
  cases op <;> simp only [microStep] <;> repeat' split
  all_goals simp [State.raise, State.respond]

theorem microStep_busAddr (op : MicroOp) (s : State) (h : ∀ a, op ≠ .finBegin a) :
    (microStep op s).busAddr = s.busAddr := by
  cases op <;> simp only [microStep] <;> repeat' split
  all_goals first
    | exact absurd rfl (h _)
    | simp [State.raise, State.respond]

theorem microStep_latchN (op : MicroOp) (s : State) (h : ∀ r, op ≠ .rd r) :
    (microStep op s).latchN = s.latchN := by
  cases op <;> simp only [microStep] <;> repeat' split
  all_goals first
    | exact absurd rfl (h _)
    | simp [State.raise, State.respond]

theorem microStep_device (op : MicroOp) (s : State) (h : ∀ r v, op ≠ .w2 r v) :
    (microStep op s).device = s.device := by
  cases op <;> simp only [microStep] <;> repeat' split
  all_goals first
    | exact absurd rfl (h _ _)
    | simp [State.raise, State.respond]

end Sys2Proof.Machine
end

