-- ==== Sys2Proof/Laws/PerInstr.lean ====
section
/-! SUPPORT. Statements about the syntax of every command, one lemma per constructor. -/

namespace Sys2Proof.Laws.RoundTrip

/-- The decoder reads the encoder's word as the command (30_encoding.md R71-R74). -/
def Statement (i : Instr) : Prop := decode (encode i) = .command i

theorem beginBus (sel : Byte) : Statement (.beginBus sel) := by
  simp [Statement, decode_by_fields, encode]

theorem resolve (t : Nibble) (p : Byte) : Statement (.resolve t p) := by
  simp [Statement, decode_by_fields, encode]

theorem bitmask (p : Byte) : Statement (.bitmask p) := by
  simp [Statement, decode_by_fields, encode]

theorem insert (n mask value : Byte) : Statement (.insert n mask value) := by
  simp [Statement, decode_by_fields, encode]

theorem extract (n p : Byte) : Statement (.extract n p) := by
  simp [Statement, decode_by_fields, encode]

theorem readReg (r : Byte) : Statement (.readReg r) := by
  simp [Statement, decode_by_fields, encode]

theorem writeReg (r v : Byte) : Statement (.writeReg r v) := by
  simp [Statement, decode_by_fields, encode]

theorem setBits (r mask value : Byte) : Statement (.setBits r mask value) := by
  simp [Statement, decode_by_fields, encode]

theorem pinMode (p isInput : Byte) : Statement (.pinMode p isInput) := by
  simp [Statement, decode_by_fields, encode]

theorem portMode (q byteMask : Byte) : Statement (.portMode q byteMask) := by
  simp [Statement, decode_by_fields, encode]

theorem digitalWrite (p level : Byte) : Statement (.digitalWrite p level) := by
  simp [Statement, decode_by_fields, encode]

theorem digitalRead (p : Byte) : Statement (.digitalRead p) := by
  simp [Statement, decode_by_fields, encode]

theorem portWrite (q v : Byte) : Statement (.portWrite q v) := by
  simp [Statement, decode_by_fields, encode]

theorem portRead (q : Byte) : Statement (.portRead q) := by
  simp [Statement, decode_by_fields, encode]

theorem setPolarity (p enabled : Byte) : Statement (.setPolarity p enabled) := by
  simp [Statement, decode_by_fields, encode]

theorem setInterrupt (p enabled : Byte) : Statement (.setInterrupt p enabled) := by
  simp [Statement, decode_by_fields, encode]

theorem setPullup (p enabled : Byte) : Statement (.setPullup p enabled) := by
  simp [Statement, decode_by_fields, encode]

end Sys2Proof.Laws.RoundTrip
end

