-- ==== Sys2Proof/Laws/Step.lean ====
section
/-! SUPPORT. What a step can do, said once: a move of another agent, or RADBF's turn, and what RADBF's
turn can be. -/

namespace Sys2Proof.Machine

/-- The agenda after RADBF took its turn: a `radbf` entry is used up, and an interference write that
falls inside a register read stays (R55). -/
def AgendaAfterTurn (s : State) (rest : List Turn) : Prop :=
  (s.agenda = [] ∧ rest = []) ∨ s.agenda = .radbf :: rest ∨
    (s.insideRegisterRead = true ∧ rest = s.agenda ∧
      ∃ r v later, s.agenda = .interfere r v :: later)

/-- RADBF's turn is the step of a state whose agenda leaves it to RADBF. -/
theorem step_radbf {s : State} {rest : List Turn} (h : AgendaAfterTurn s rest) :
    step s = sequencerTurn { s with agenda := rest } := by
  rcases h with ⟨h, rfl⟩ | h | ⟨hin, rfl, r, v, later, h⟩
  · simp only [step, nextTurn, h]
    congr 1
    exact State.ext rfl rfl rfl rfl rfl rfl rfl h rfl rfl rfl rfl rfl
  · simp only [step, nextTurn, h]
  · simp only [step, nextTurn, h, hin, if_true]
    congr 1
    exact State.ext rfl rfl rfl rfl rfl rfl rfl h rfl rfl rfl rfl rfl

/-- A step is a reset (R230), an interference write outside a register read (R55), or RADBF's turn. -/
theorem step_cases {s t : State} (h : step s = .next t) :
    (∃ rest, s.agenda = .reset :: rest ∧ t = State.applyReset { s with agenda := rest }) ∨
    (∃ r v rest, s.agenda = .interfere r v :: rest ∧ s.insideRegisterRead = false ∧
      t = State.interfere { s with agenda := rest } r v) ∨
    (∃ rest, AgendaAfterTurn s rest ∧ sequencerTurn { s with agenda := rest } = .next t) := by
  cases ha : s.agenda with
  | nil =>
    have hr : AgendaAfterTurn s [] := .inl ⟨ha, rfl⟩
    exact .inr (.inr ⟨[], hr, (step_radbf hr) ▸ h⟩)
  | cons a rest =>
    cases a with
    | radbf =>
      have hr : AgendaAfterTurn s rest := .inr (.inl ha)
      exact .inr (.inr ⟨rest, hr, (step_radbf hr) ▸ h⟩)
    | reset =>
      simp only [step, nextTurn, ha] at h
      cases h
      exact .inl ⟨rest, rfl, rfl⟩
    | interfere r v =>
      cases hin : s.insideRegisterRead with
      | false =>
        simp only [step, nextTurn, ha, hin] at h
        cases h
        exact .inr (.inl ⟨r, v, rest, rfl, rfl, rfl⟩)
      | true =>
        have hr : AgendaAfterTurn s s.agenda := .inr (.inr ⟨hin, rfl, r, v, rest, ha⟩)
        exact .inr (.inr ⟨_, hr, (step_radbf hr) ▸ h⟩)

/-- RADBF's turn: it waits, answers a word that matches no row, or performs a step of a command. -/
theorem sequencerTurn_cases {s t : State} (h : sequencerTurn s = .next t) :
    (s.seq = .idle ∧ s.host = [] ∧ t = s) ∨
    (∃ w rest reason, s.seq = .idle ∧ s.host = w :: rest ∧ decode w = .illegal reason ∧
      t = (s.takeCommand.accept w).raise .IllegalCommand) ∨
    (∃ w rest i, s.seq = .idle ∧ s.host = w :: rest ∧ decode w = .command i ∧
      exec i s.takeCommand = .next t) ∨
    (∃ w k reason, s.seq = .busy w k ∧ decode w = .illegal reason ∧ t = s.raise .IllegalCommand) ∨
    (∃ w k i, s.seq = .busy w k ∧ decode w = .command i ∧ exec i s = .next t) := by
  unfold sequencerTurn at h
  split at h
  next hs =>
    split at h
    next hh => cases h; exact .inl ⟨hs, hh, rfl⟩
    next w rest hh =>
      split at h
      next i hd => exact .inr (.inr (.inl ⟨w, rest, i, hs, hh, hd, h⟩))
      next reason hd => cases h; exact .inr (.inl ⟨w, rest, reason, hs, hh, hd, rfl⟩)
  next w k hs =>
    split at h
    next i hd => exact .inr (.inr (.inr (.inr ⟨w, k, i, hs, hd, h⟩)))
    next reason hd => cases h; exact .inr (.inr (.inr (.inl ⟨w, k, reason, hs, hd, rfl⟩)))

end Sys2Proof.Machine
end

