-- ==== Sys2Proof/Laws/Run.lean ====
section
/-! SUPPORT. The shape of the micro-operation lists, what a micro-operation does to SEQ, what the frame
check passing says, and runs of several steps cut into one step and the rest. -/

namespace Sys2Proof.Machine

/-! ## The lists of micro-operations -/

theorem State.busy_of_microIndex {s : State} {k : Nat} (h : s.microIndex = k + 1) :
    ∃ w, s.seq = .busy w (k + 1) := by
  unfold microIndex at h
  split at h
  next => cases h
  next w j hs => exact ⟨w, by rw [hs, h]⟩

/-- The length of a command's list does not depend on the latch. -/
theorem microOps_length (i : Instr) (n : Byte) : (microOps i n).length = microCount i := by
  cases i <;> rfl

theorem microCount_pos (i : Instr) : 0 < microCount i := by
  cases i <;> exact Nat.zero_lt_succ _

theorem microCount_le_four (i : Instr) : microCount i ≤ 4 := by
  cases i <;> simp [microCount, microOps, microOps.pinOps]

section
variable {i : Instr} {n : Byte} {k : Nat} {r : Byte}

/-- An address frame is a command's first micro-operation. -/
theorem w1_index (h : (microOps i n)[k]? = some (.w1 r)) : k = 0 := by
  cases i <;> simp [microOps, microOps.pinOps] at h <;> rcases k with _ | _ | _ | _ | k <;> simp at h ⊢

/-- A read frame is the second micro-operation of a command that reads. -/
theorem rd_index (h : (microOps i n)[k]? = some (.rd r)) : readsRegister i = true ∧ k = 1 := by
  cases i <;> simp [microOps, microOps.pinOps] at h <;> rcases k with _ | _ | _ | _ | k <;>
    simp [readsRegister] at h ⊢

/-- BUSADDR is written by the second micro-operation of BEGIN. -/
theorem finBegin_index {a : BusAddress} (h : (microOps i n)[k]? = some (.finBegin a)) :
    k = 1 ∧ ∃ sel, i = .beginBus sel ∧ a = busAddress sel := by
  cases i <;> simp [microOps, microOps.pinOps] at h <;> rcases k with _ | _ | _ | _ | k <;> simp at h ⊢
  exact h.symm

/-- The first micro-operation of a command that reads is its address frame. -/
theorem first_of_reads {op : MicroOp} (h : (microOps i n)[0]? = some op)
    (hr : readsRegister i = true) : ∃ r, op = .w1 r := by
  cases i <;> simp [readsRegister] at hr <;> simp [microOps, microOps.pinOps] at h <;>
    exact ⟨_, h.symm⟩

/-- A micro-operation that does not answer is not the last of its list. -/
theorem goes_on {op : MicroOp} (h : (microOps i n)[k]? = some op)
    (hop : (∀ v, op ≠ .fin v) ∧ ∀ a, op ≠ .finBegin a) : k + 1 < microCount i := by
  rw [← microOps_length i n]
  cases i <;> simp [microOps, microOps.pinOps] at h ⊢ <;> rcases k with _ | _ | _ | _ | k <;>
    simp at h ⊢ <;> subst h <;> simp at hop
end

/-! ## One micro-operation -/

/-- A frame is issued only with an address and on a defined offset (R21, R42). -/
theorem frameFault_none {op : MicroOp} {s : State} (h : frameFault op s = none) (r : Byte)
    (hr : op.offset? = some r) : s.valid = true ∧ inDef r = true := by
  simp only [frameFault, hr] at h
  cases hv : s.valid <;> cases hi : inDef r <;> simp_all

/-- A micro-operation answers and leaves IDLE, or it is no FIN and the command goes on to its next
micro-operation. -/
theorem microStep_seq (op : MicroOp) {s : State} {w : Word} {k : Nat} (hs : s.seq = .busy w k) :
    (∃ st v, (microStep op s).seq = .idle ∧ (microStep op s).response = some ⟨st, v⟩ ∧
      (st = .OK ∨ v = 0x00#8)) ∨
    ((microStep op s).seq = .busy w (k + 1) ∧ (microStep op s).response = s.response ∧
      (∀ v, op ≠ .fin v) ∧ ∀ a, op ≠ .finBegin a) := by
  cases op <;> simp only [microStep] <;> repeat' split
  all_goals first
    | (left; simp [State.raise, State.respond]; done)
    | (right
       refine ⟨?_, by simp, by simp, by simp⟩
       rw [State.advance_seq_busy (w := w) (k := k)]
       simpa using hs)

/-- What a micro-operation records: at most one frame and at most one event more, and a response only of
OK or of a transport error. -/
theorem microStep_trace (op : MicroOp) (s : State) :
    ∃ added, (microStep op s).trace = s.trace ++ added ∧
      added.countP Event.isFrame ≤ 1 ∧ added.length ≤ 2 ∧
      ∀ st v, Event.response st v ∈ added →
        st = .OK ∨ st = .TransportWriteShortfall ∨ st = .TransportTimeout := by
  cases op <;> simp only [microStep] <;> repeat' split
  all_goals refine ⟨_, by simp [State.raise, State.respond]; rfl, ?_, ?_, ?_⟩
  all_goals simp +contextual [Event.isFrame, List.countP_cons]

/-! ## Steps and runs -/

/-- The checks of a command read the parameters and VALID alone. -/
theorem firstError_congr (i : Instr) (s t : State) (hp : t.params = s.params)
    (hv : t.valid = s.valid) : firstError i t = firstError i s := by simp [firstError, hp, hv]

theorem State.insideRegisterRead_iff (s : State) : s.insideRegisterRead = true ↔
    ∃ w i, s.seq = .busy w 1 ∧ decode w = .command i ∧ readsRegister i = true := by
  unfold insideRegisterRead
  constructor
  · intro h
    split at h
    next => cases h
    next w k hs =>
      split at h
      next i hd => simp at h; obtain ⟨h1, rfl⟩ := h; exact ⟨w, i, hs, hd, h1⟩
      next => cases h
  · rintro ⟨w, i, hs, hd, hr⟩
    simp [hs, hd, hr]

theorem run_succ {s t : State} (h : step s = .next t) (n : Nat) :
    Host.Core.run core (n + 1) s = Host.Core.run core n t := by
  have h' : core.step s = .next t := h
  simp only [Host.Core.run, h']

theorem run_add {s t : State} {n m : Nat} (h : Host.Core.run core n s = .next t) :
    Host.Core.run core (n + m) s = Host.Core.run core m t := by
  induction n generalizing s with
  | zero => cases h; simp
  | succ n ih =>
    cases hx : step s with
    | next u => rw [run_succ hx] at h; rw [Nat.succ_add, run_succ hx]; exact ih h
    | fault f => have h' : core.step s = _ := hx; simp only [Host.Core.run, h'] at h; cases h
    | refused f => have h' : core.step s = _ := hx; simp only [Host.Core.run, h'] at h; cases h

end Sys2Proof.Machine
end

