-- ==== Sys2Proof/Tests/Slice0.lean ====
section
/-! SUPPORT. Tests, their expected results from spec/95_test_vectors.md (named per test) or worked out
by hand from the rule named; and for every statement with hypotheses, a concrete case that meets
them. -/

namespace Sys2Proof.Tests

open Sys2Proof Sys2Proof.Machine

/-! ## Helpers -/

/-- After `BEGIN sel` under Memory, SEQ = IDLE, with the given register contents, queued transport
answers and host commands. -/
def idleState (sel : Byte) (device : Memory) (acks : List Nat) (replies : List ReadOutcome)
    (host : List Word) : State :=
  { State.reset with
    busAddr := validBusAddr (busAddress sel)
    device := device
    params := { pinCheck := true, deviceModel := .memory }
    acks := acks
    replies := replies
    host := host }

/-- The same, with a command in progress at a micro-operation and a byte in the latch. -/
def busyState (sel : Byte) (device : Memory) (acks : List Nat) (replies : List ReadOutcome)
    (cmd : Word) (k : Nat) (n : Byte) : State :=
  { idleState sel device acks replies [] with seq := .busy cmd k, latchN := n }

/-- The next state of an outcome. -/
def nextOf : Result → Option State
  | .next s => some s
  | .fault _ => none
  | .refused _ => none

/-- The answer the next state holds. -/
def answer (r : Result) : Option Response := (nextOf r).bind State.response

/-- The events a step added to an empty trace. -/
def events (r : Result) : Option (List Event) := (nextOf r).map State.trace

/-- The register space after a step. -/
def deviceOf (r : Result) : Option Memory := (nextOf r).map State.device

/-- `PIN_CHECK` = false, before BEGIN. -/
def unchecked : State := { State.reset with params := { pinCheck := false, deviceModel := .memory } }

/-- A read frame answered: under Memory the byte drawn is not looked at (R49). -/
def answered : ReadOutcome := .byte 0x00#8

/-! ## WellFormed: one ill-formed term for each check, refused; a well-formed one of each operand kind -/

theorem test_wf_pin : (Instr.digitalWrite 16#8 1#8).wellFormed = false := by decide
theorem test_wf_pin_extract : (Instr.extract 0x08#8 19#8).wellFormed = false := by decide
theorem test_wf_category : (Instr.resolve 5#4 0#8).wellFormed = false := by decide
theorem test_wf_resolve_pin : (Instr.resolve 9#4 16#8).wellFormed = false := by decide
theorem test_wf_port : (Instr.portWrite 0x14#8 0#8).wellFormed = false := by decide
theorem test_wf_register_hole : (Instr.readReg 0x0B#8).wellFormed = false := by decide
theorem test_wf_register_end : (Instr.setBits 0x16#8 0#8 0#8).wellFormed = false := by decide
theorem test_wf_accepts : ∀ i ∈ [Instr.digitalWrite 15#8 1#8, .resolve 10#4 15#8, .portMode 0x13#8 0#8,
    .readReg 0x0A#8, .setBits 0x15#8 0#8 0#8, .beginBus 0xFF#8, .insert 0#8 0#8 0#8],
    i.wellFormed = true := by decide

/-! ## Decode: each word from the rule or vector that gives it -/

theorem test_decode_begin : decode 0x10050000#32 = .command (.beginBus 5#8) := by decide
theorem test_decode_resolve : decode 0x290A0000#32 = .command (.resolve 9#4 10#8) := by decide
theorem test_decode_bitmask : decode 0x300B0000#32 = .command (.bitmask 11#8) := by decide
theorem test_decode_insert : decode 0x40C33CA5#32 = .command (.insert 0xC3#8 0x3C#8 0xA5#8) := by
  decide
theorem test_decode_extract : decode 0x50080B00#32 = .command (.extract 0x08#8 11#8) := by decide
theorem test_decode_readReg : decode 0x60150000#32 = .command (.readReg 0x15#8) := by decide
theorem test_decode_writeReg : decode 0x7014AA00#32 = .command (.writeReg 0x14#8 0xAA#8) := by decide
theorem test_decode_setBits : decode 0x80140F05#32 = .command (.setBits 0x14#8 0x0F#8 0x05#8) := by
  decide
theorem test_decode_pinMode : decode 0x90030200#32 = .command (.pinMode 3#8 2#8) := by decide
theorem test_decode_portMode : decode 0xA012AA00#32 = .command (.portMode 0x12#8 0xAA#8) := by decide
theorem test_decode_digitalWrite : decode 0xB00C0100#32 = .command (.digitalWrite 12#8 1#8) := by
  decide
theorem test_decode_digitalRead : decode 0xC00F0000#32 = .command (.digitalRead 15#8) := by decide
theorem test_decode_portWrite : decode 0xD0130F00#32 = .command (.portWrite 0x13#8 0x0F#8) := by decide
theorem test_decode_portRead : decode 0xE0110000#32 = .command (.portRead 0x11#8) := by decide
theorem test_decode_setPolarity : decode 0xF1080000#32 = .command (.setPolarity 8#8 0#8) := by decide
theorem test_decode_setInterrupt : decode 0xF2040100#32 = .command (.setInterrupt 4#8 1#8) := by decide
theorem test_decode_setPullup : decode 0xF60F0000#32 = .command (.setPullup 15#8 0#8) := by decide

/-- V-DEC, the illegal words. -/
theorem test_decode_illegal :
    decode 0x00000000#32 = .illegal .opcodeZero ∧ decode 0x0FFFFFFF#32 = .illegal .opcodeZero ∧
    decode 0x11000000#32 = .illegal .catNotZero ∧ decode 0x10050100#32 = .illegal .bNotZero ∧
    decode 0x10050001#32 = .illegal .cNotZero ∧ decode 0x30000100#32 = .illegal .bNotZero ∧
    decode 0x41FFFFFF#32 = .illegal .catNotZero ∧ decode 0x50000001#32 = .illegal .cNotZero ∧
    decode 0x6000FF00#32 = .illegal .bNotZero ∧ decode 0xE0120001#32 = .illegal .cNotZero ∧
    decode 0xA0120055#32 = .illegal .cNotZero ∧ decode 0xF0000000#32 = .illegal .subFunction ∧
    decode 0xF3000000#32 = .illegal .subFunction ∧ decode 0xFF000000#32 = .illegal .subFunction ∧
    decode 0xF6000001#32 = .illegal .cNotZero := by decide

/-- D31: bits 31:24 go first. -/
theorem test_decode_bytes :
    decodeBytes [0x10#8, 0x05#8, 0x00#8, 0x00#8, 0x77#8] = (.command (.beginBus 5#8), [0x77#8]) ∧
    decodeBytes [0x10#8, 0x05#8] = (.illegal .tooFewBytes, [0x10#8, 0x05#8]) := by decide

theorem test_decode_table_word :
    decodeTableWord 32 0x40C33CA5 = some (.insert 0xC3#8 0x3C#8 0xA5#8) ∧
    decodeTableWord 32 0 = none := by decide

/-! ## The assembler (R77, P3, P4) -/

theorem test_assemble_names : assemble "PORT_MODE PORT_B, 0x00" = some (.portMode 0x13#8 0x00#8) := by
  decide
theorem test_assemble_register : assemble "READ_REG IOCON" = some (.readReg 0x0A#8) := by decide
theorem test_assemble_refuses : assemble "BITMASK 256" = none := by decide

/-! ## Reset (R34, R7) -/

theorem test_reset_defaults :
    State.reset.params.pinCheck = true ∧ State.reset.params.deviceModel = .oracle ∧
    State.reset.device.wf = true := by decide

/-! ## The commands, one step each -/

/-- V-BEG sel = 0xF8: FIN leaves VALID = 1 and ADDR = 0x20. -/
theorem test_begin :
    (nextOf (exec (.beginBus 0xF8#8) { State.reset with seq := .busy 0x10F80000#32 1 })).map
      (fun t => (t.valid, t.addr)) = some (true, 0x20#7) := by decide
/-- V-BEG: the only event before FIN is TINIT. -/
theorem test_begin_tinit : events (exec (.beginBus 5#8) State.reset) = some [.tinit] := by decide

/-- W1: GPIO and pin 10, before BEGIN. -/
theorem test_resolve : answer (exec (.resolve 9#4 10#8) State.reset) = some ⟨.OK, 0x13#8⟩ := by decide
/-- V-RES with `PIN_CHECK` = false, p = 200. -/
theorem test_resolve_wraps : answer (exec (.resolve 0#4 200#8) unchecked) = some ⟨.OK, 0x01#8⟩ := by
  decide

/-- V-BM. -/
theorem test_bitmask : answer (exec (.bitmask 16#8) State.reset) = some ⟨.InvalidPin, 0x00#8⟩ := by
  decide
theorem test_bitmask_wraps : answer (exec (.bitmask 255#8) unchecked) = some ⟨.OK, 0x80#8⟩ := by decide

/-- V-INS: general, and value bits outside the mask. -/
theorem test_insert :
    answer (exec (.insert 0xC3#8 0x3C#8 0xA5#8) State.reset) = some ⟨.OK, 0xE7#8⟩ := by decide
theorem test_insert_outside :
    answer (exec (.insert 0x5A#8 0x81#8 0x7E#8) State.reset) = some ⟨.OK, 0x5A#8⟩ := by decide

/-- V-EXT. -/
theorem test_extract : answer (exec (.extract 0x08#8 11#8) State.reset) = some ⟨.OK, 0x01#8⟩ := by
  decide
theorem test_extract_clear : answer (exec (.extract 0xF7#8 3#8) State.reset) = some ⟨.OK, 0x00#8⟩ := by
  decide

/-- V-REG: READ_REG OLATB reads 0x3C. -/
theorem test_readReg :
    events (exec (.readReg 0x15#8) (busyState 0 [(0x15, 0x3C#8)] [] [answered] 0x60150000#32 1 0#8)) =
      some [.readFrame 0x20#7 (.byte 0x3C#8)] := by decide
/-- V-REG: the read times out. -/
theorem test_readReg_timeout :
    answer (exec (.readReg 0x15#8) (busyState 0 [] [] [.timeout] 0x60150000#32 1 0#8)) =
      some ⟨.TransportTimeout, 0x00#8⟩ := by decide

/-- V-REG: WRITE_REG IODIRA, 0xFF. -/
theorem test_writeReg :
    deviceOf (exec (.writeReg 0x00#8 0xFF#8) (idleState 0 [] [2] [] [])) = some [(0x00, 0xFF#8)] := by
  decide
/-- V-REG: k = 1 is a shortfall and Memory is unchanged. -/
theorem test_writeReg_short :
    (nextOf (exec (.writeReg 0x14#8 0xAA#8) (idleState 0 [] [1] [] []))).map
      (fun t => (t.response, t.device)) =
      some (some ⟨.TransportWriteShortfall, 0x00#8⟩, []) := by decide

/-- W4: OLATA = 0x0F, mask 0xF0, value 0x5A: W2 sends 0x5F. -/
theorem test_setBits :
    deviceOf (exec (.setBits 0x14#8 0xF0#8 0x5A#8)
      (busyState 0 [(0x14, 0x0F#8)] [2] [] 0x8014F05A#32 2 0x0F#8)) = some [(0x14, 0x5F#8)] := by decide
/-- V-RMW: mask 0x00 still reads. -/
theorem test_setBits_mask_zero :
    events (exec (.setBits 0x14#8 0x00#8 0x00#8) (idleState 0 [(0x14, 0xA5#8)] [1] [] [])) =
      some [.writeFrame 0x20#7 [0x14#8] 1] := by decide

/-- V-API. -/
theorem test_pinMode :
    events (exec (.pinMode 10#8 1#8) (busyState 3 [] [2] [] 0x900A0100#32 2 0x00#8)) =
      some [.writeFrame 0x23#7 [0x01#8, 0x04#8] 2] := by decide
theorem test_pinMode_output :
    deviceOf (exec (.pinMode 3#8 0#8) (busyState 3 [(0, 0xFF#8)] [2] [] 0x90030000#32 2 0xFF#8)) =
      some [(0, 0xF7#8)] := by decide
theorem test_portMode :
    events (exec (.portMode 0x12#8 0xAA#8) (idleState 3 [] [2] [] [])) =
      some [.writeFrame 0x23#7 [0x00#8, 0xAA#8] 2] := by decide
theorem test_portMode_offset :
    answer (exec (.portMode 0x00#8 0x00#8) (idleState 3 [] [2] [] [])) =
      some ⟨.InvalidRegister, 0x00#8⟩ := by decide
theorem test_digitalWrite :
    events (exec (.digitalWrite 0#8 0#8) (busyState 3 [(0x12, 0xFF#8)] [2] [] 0xB0000000#32 2 0xFF#8)) =
      some [.writeFrame 0x23#7 [0x12#8, 0xFE#8] 2] := by decide
theorem test_digitalWrite_address :
    events (exec (.digitalWrite 12#8 1#8) (idleState 3 [(0x13, 0x0F#8)] [1] [] [])) =
      some [.writeFrame 0x23#7 [0x13#8] 1] := by decide
theorem test_digitalRead :
    answer (exec (.digitalRead 15#8) (busyState 3 [(0x13, 0x80#8)] [] [] 0xC00F0000#32 2 0x80#8)) =
      some ⟨.OK, 0x01#8⟩ := by decide
theorem test_digitalRead_clear :
    answer (exec (.digitalRead 8#8) (busyState 3 [(0x13, 0xFE#8)] [] [] 0xC0080000#32 2 0xFE#8)) =
      some ⟨.OK, 0x00#8⟩ := by decide
theorem test_portWrite :
    deviceOf (exec (.portWrite 0x12#8 0xAA#8) (idleState 3 [] [2] [] [])) = some [(0x12, 0xAA#8)] := by
  decide
theorem test_portRead :
    (nextOf (exec (.portRead 0x13#8)
      (busyState 3 [(0x13, 0x5A#8)] [] [answered] 0xE0130000#32 1 0#8))).map State.latchN =
      some 0x5A#8 := by decide
theorem test_setPolarity :
    events (exec (.setPolarity 0#8 1#8) (busyState 3 [(2, 0x80#8)] [2] [] 0xF1000100#32 2 0x80#8)) =
      some [.writeFrame 0x23#7 [0x02#8, 0x81#8] 2] := by decide
theorem test_setInterrupt :
    events (exec (.setInterrupt 15#8 1#8) (busyState 3 [(5, 1#8)] [2] [] 0xF20F0100#32 2 0x01#8)) =
      some [.writeFrame 0x23#7 [0x05#8, 0x81#8] 2] := by decide
theorem test_setPullup :
    events (exec (.setPullup 15#8 0#8) (busyState 3 [(0x0D, 0xFF#8)] [2] [] 0xF60F0000#32 2 0xFF#8)) =
      some [.writeFrame 0x23#7 [0x0D#8, 0x7F#8] 2] := by decide

/-- V-PRI: the answers before any BEGIN. -/
theorem test_priority :
    answer (exec (.resolve 15#4 16#8) State.reset) = some ⟨.InvalidRegister, 0#8⟩ ∧
    answer (exec (.resolve 0#4 16#8) State.reset) = some ⟨.InvalidPin, 0#8⟩ ∧
    answer (exec (.digitalWrite 16#8 1#8) State.reset) = some ⟨.InvalidPin, 0#8⟩ ∧
    answer (exec (.readReg 0x16#8) State.reset) = some ⟨.InvalidRegister, 0#8⟩ ∧
    answer (exec (.portMode 0x00#8 0#8) State.reset) = some ⟨.InvalidRegister, 0#8⟩ ∧
    answer (exec (.digitalRead 3#8) State.reset) = some ⟨.NotInitialized, 0#8⟩ := by decide

/-- V-PRI 0xB0100101: a word with C ≠ 0 is illegal whatever its operands are. -/
theorem test_priority_illegal :
    answer (step { State.reset with host := [0xB0100101#32] }) = some ⟨.IllegalCommand, 0#8⟩ := by decide

/-- A word placed by `withFetchWord` runs in the next step, from reset. -/
theorem test_withFetchWord :
    answer (step (State.reset.withFetchWord 32 0x290A0000)) = some ⟨.OK, 0x13#8⟩ := by decide

/-- The race of P3 command 5: the interference write lands between RD and W2. -/
theorem test_interference :
    deviceOf (step { busyState 7 [(0x14, 0xA0#8)] [] [] 0x80140F05#32 2 0xA0#8 with
      agenda := [.interfere .OLATA 0xFF#8] }) = some [(0x14, 0xFF#8)] := by decide

/-- R55: inside a register read the interference write waits and RADBF moves. -/
theorem test_interference_waits :
    events (step { busyState 7 [(0x14, 0xA0#8)] [] [answered] 0x80140F05#32 1 0#8 with
      agenda := [.interfere .OLATA 0xFF#8] }) = some [.readFrame 0x27#7 (.byte 0xA0#8)] := by decide

/-- R230: reset in the middle of a command. -/
theorem test_reset_mid_command :
    (nextOf (step { busyState 7 [(0x14, 0xA0#8)] [] [] 0x80140F05#32 2 0xA0#8 with
      agenda := [.reset] })).map (fun t => (t.valid, t.seq, t.response, t.device)) =
      some (false, .idle, none, [(0x14, 0xA0#8)]) := by decide

/-- Writing what an unlisted register reads as removes the entry. -/
theorem test_memory_canonical :
    Memory.write [(0x00, 1#8), (0x14, 2#8)] 0x14 0#8 = [(0x00, 1#8)] ∧
    Memory.write [(0x00, 1#8), (0x14, 2#8)] 0x02 7#8 = [(0x00, 1#8), (0x02, 7#8), (0x14, 2#8)] := by
  decide

/-! ## Witnesses: for each statement with hypotheses, cases that meet them -/

/-! Encoding and pure functions. -/

/-- EncodeOfDecodeIsTheWord. -/
theorem witness_encode_of_decode : decode 0x10FF0000#32 = .command (.beginBus 0xFF#8) := by decide
/-- WordsMatchingNoRowAreIllegal: a word of a row, and one for each way of matching none. -/
theorem witness_illegal_words :
    (⟨.RESOLVE, 0x20000000#32, 0xF000FFFF#32⟩ ∈ opcodeTable ∧
      0x2FFF0000#32 &&& 0xF000FFFF#32 = 0x20000000#32) ∧
    (opcOf 0x00000000#32 = 0x0#4 ∧ decode 0x00000000#32 = .illegal .opcodeZero) ∧
    (catOf 0xF7000000#32 = 7#4 ∧ decode 0xF7000000#32 = .illegal .subFunction) ∧
    (bOf 0x100501FF#32 ≠ 0#8 ∧ decode 0x100501FF#32 = .illegal .bNotZero) ∧
    (bOf 0x2F000100#32 ≠ 0#8 ∧ decode 0x2F000100#32 = .illegal .bNotZero) ∧
    (catOf 0x4F000000#32 ≠ 0#4 ∧ decode 0x4F000000#32 = .illegal .catNotZero) ∧
    (cOf 0xD0120001#32 ≠ 0#8 ∧ decode 0xD0120001#32 = .illegal .cNotZero) ∧
    (cOf 0xF60000FF#32 ≠ 0#8 ∧ decode 0xF60000FF#32 = .illegal .cNotZero) := by decide
/-- NoWordMatchesTwoRows. -/
theorem witness_two_rows :
    (⟨.SET_PULLUP, 0xF6000000#32, 0xFF0000FF#32⟩ : Row) ∈ opcodeTable ∧
      0xF6FFFF00#32 &&& 0xFF0000FF#32 = 0xF6000000#32 := by decide
/-- FieldsCoverTheCommandWord. -/
theorem witness_fields :
    0xF60901FF#32 = ((0xF#4).setWidth 32 <<< 28) ||| ((6#4).setWidth 32 <<< 24)
      ||| ((9#8).setWidth 32 <<< 16) ||| ((1#8).setWidth 32 <<< 8) ||| (0xFF#8).setWidth 32 := by decide
/-- PinsResolveToTheirHalf: the pins at the edges of each half. -/
theorem witness_pins :
    (10#4 ∈ [0#4, 1#4, 2#4, 3#4, 4#4, 6#4, 7#4, 8#4, 9#4, 10#4]) ∧ 7#8 ≤ 7#8 ∧ 8#8 ≤ 8#8 ∧
      8#8 ≤ 15#8 ∧ 15#8 ≤ 15#8 ∧ resolvePin 7#8 10#4 = 0x14#8 ∧ resolvePin 8#8 10#4 = 0x15#8 ∧
      resolvePin 15#8 0#4 = 0x01#8 := by decide
/-- MaskOfPinIsItsBit. -/
theorem witness_mask_of_pin :
    7 < 8 ∧ (bitMask 255#8).getLsbD 7 = true ∧ (bitMask 255#8).getLsbD 0 = false := by decide
/-- RegisterMapIsPaired and PortsResolveToTheirRegisters: the edges of DEF. -/
theorem witness_register_map :
    devRegType .OLATB ≠ 5#4 ∧ devRegHalf .OLATB = some .B ∧ devRegType .IOCON = 5#4 ∧
      inDef 0x0A#8 = true ∧ inDef 0x0B#8 = false ∧ inDef 0x0C#8 = true ∧ inDef 0x15#8 = true ∧
      inDef 0x16#8 = false := by decide
/-- BitFieldLawsHold (g). -/
theorem witness_bit_field : bitpos 8#8 ≠ bitpos 15#8 := by decide

/-! Completion: SEQ = IDLE, and each clause's conditions at its edges. -/

/-- SEQ = IDLE: every completion statement, and LatchIsDeadBetweenCommands. -/
theorem witness_idle : State.reset.seq = .idle ∧ (idleState 5#8 [] [] [] []).seq = .idle := by decide
/-- ResolveAnswersTheOffset, BitmaskAnswersTheMask, ExtractAnswersTheBit: each clause. -/
theorem witness_pure_clauses :
    (5#4 ∉ [0#4, 1#4, 2#4, 3#4, 4#4, 6#4, 7#4, 8#4, 9#4, 10#4]) ∧
      State.reset.params.pinCheck = true ∧ 16#8 > 15#8 ∧ ¬ 15#8 > 15#8 ∧
      unchecked.params.pinCheck = false := by decide
/-- ReadRegReadsTheRegister, WriteRegWritesTheRegister, SetBitsReadsThenWrites: an undefined offset; a
defined one before BEGIN; a defined one after. -/
theorem witness_register_clauses :
    inDef 0x0B#8 = false ∧ inDef 0x16#8 = false ∧
    (inDef 0x15#8 = true ∧ State.reset.valid = false) ∧
    (inDef 0x0C#8 = true ∧ (idleState 5#8 [] [] [] []).valid = true) := by decide
/-- ReadsRegister, in every statement of a read: the address frame refused; accepted and
timed out; accepted and answered. -/
theorem witness_read_clauses :
    (idleState 0#8 [] [0] [] []).nextAccept 1 = 0 ∧
    ((idleState 0#8 [] [1] [.timeout] []).nextAccept 1 = 1 ∧
      (idleState 0#8 [] [1] [.timeout] []).readOutcome 0x14#8 = .timeout) ∧
    ((idleState 0#8 [(0x14, 7#8)] [1] [answered] []).nextAccept 1 = 1 ∧
      (idleState 0#8 [(0x14, 7#8)] [1] [answered] []).readOutcome 0x14#8 = .byte 7#8) := by decide
/-- WriteCommand: one byte accepted; both. -/
theorem witness_write_clauses :
    (idleState 0#8 [] [1] [] []).nextAccept 2 < 2 ∧ (idleState 0#8 [] [2] [] []).nextAccept 2 = 2 := by
  decide
/-- RmwCommand: after the read, the write frame short; whole. -/
theorem witness_rmw_clauses :
    ((idleState 0#8 [] [1, 1] [answered] []).nextAccept 1 = 1 ∧
      (idleState 0#8 [] [1, 1] [answered] []).readOutcome 0x14#8 = .byte 0#8 ∧
      ((idleState 0#8 [] [1, 1] [answered] []).afterByte (.setBits 0x14#8 1#8 1#8) 0x14#8 0#8).nextAccept
        2 < 2) ∧
    ((idleState 0#8 [] [1, 2] [answered] []).nextAccept 1 = 1 ∧
      ((idleState 0#8 [] [1, 2] [answered] []).afterByte (.setBits 0x14#8 1#8 1#8) 0x14#8 0#8).nextAccept
        2 = 2) := by decide
/-- SetBitsReadsThenWrites: the clause about Memory. -/
theorem witness_setBits_memory :
    (idleState 0#8 [(0x14, 7#8)] [] [answered] []).params.deviceModel = .memory ∧
    (idleState 0#8 [(0x14, 7#8)] [] [answered] []).device.wf = true ∧
    (idleState 0#8 [(0x14, 7#8)] [] [answered] []).readOutcome 0x14#8 = .byte 7#8 := by decide
/-- PinCommandsSetTheirBit, DigitalReadAnswersTheBit: a pin refused; a pin 15, and a pin 200 unchecked,
before BEGIN and after. -/
theorem witness_pin_clauses :
    (Instr.setPullup 15#8 1#8, 6#4) ∈ [(Instr.pinMode 15#8 1#8, 0#4), (.setPolarity 15#8 1#8, 1#4),
      (.setInterrupt 15#8 1#8, 2#4), (.setPullup 15#8 1#8, 6#4), (.digitalWrite 15#8 1#8, 9#4)] ∧
    (State.reset.params.pinCheck = true ∧ 16#8 > 15#8) ∧
    (15#8 ≤ 15#8 ∧ State.reset.valid = false) ∧
    (unchecked.params.pinCheck = false ∧ unchecked.valid = false) ∧
    (15#8 ≤ 15#8 ∧ (idleState 5#8 [] [] [] []).valid = true) := by decide
/-- PortCommandsWriteWholeRegisters, PortReadAnswersTheByte: an operand beside each port; each
port before BEGIN and after. -/
theorem witness_port_clauses :
    (0x11#8 ≠ 0x12#8 ∧ 0x11#8 ≠ 0x13#8) ∧ (0x14#8 ≠ 0x12#8 ∧ 0x14#8 ≠ 0x13#8) ∧
    ((0x12#8 = 0x12#8 ∨ 0x12#8 = 0x13#8) ∧ State.reset.valid = false) ∧
    ((0x13#8 = 0x12#8 ∨ 0x13#8 = 0x13#8) ∧ (idleState 5#8 [] [] [] []).valid = true) := by decide

/-! Frames and errors. -/

/-- CommandStepsKeepTheRest: steps that change BUSADDR, change N, and issue no frame. -/
theorem witness_frame_clauses :
    ((nextOf (exec (.beginBus 1#8) { State.reset with seq := .busy 0x10010000#32 1 })).any
      (fun t => t.busAddr != State.reset.busAddr)) = true ∧
    ((nextOf (exec (.readReg 0x14#8)
      (busyState 0#8 [(0x14, 7#8)] [] [answered] 0x60140000#32 1 0#8))).any
      (fun t => t.latchN != 0#8)) = true ∧
    (issuesFrames (.bitmask 3#8) = false ∧ (nextOf (exec (.bitmask 3#8) State.reset)).isSome = true) := by
  decide
/-- DeviceChangesOnlyAtTheStoredOffset: a step that stores, from SEQ = IDLE and from SEQ =
BUSY, and one that stores nothing. -/
theorem witness_store_clauses :
    ((idleState 0#8 [(0x14, 7#8)] [2] [] []).device.wf = true ∧
      (nextOf (exec (.writeReg 0x14#8 9#8) (idleState 0#8 [(0x14, 7#8)] [2] [] []))).isSome = true ∧
      (microOps (.writeReg 0x14#8 9#8) 0#8)[0]? = some (.w2 0x14#8 9#8)) ∧
    ((nextOf (exec (.setBits 0x14#8 0xF0#8 0x5A#8)
        (busyState 0#8 [(0x14, 0x0F#8)] [2] [] 0x8014F05A#32 2 0x0F#8))).isSome = true ∧
      (microOps (.setBits 0x14#8 0xF0#8 0x5A#8) 0x0F#8)[2]? = some (.w2 0x14#8 0x5F#8)) ∧
    ((nextOf (exec (.readReg 0x14#8) (idleState 0#8 [] [1] [] []))).isSome = true ∧
      (microOps (.readReg 0x14#8) 0#8)[0]? = some (.w1 0x14#8)) := by decide
/-- FailedChecksAnswerInOrder: each clause, at the edge of the pins. -/
theorem witness_failed_check_clauses :
    badRegisterOperand (.resolve 5#4 16#8) = true ∧
    (badRegisterOperand (.resolve 10#4 16#8) = false ∧ pinOperand (.resolve 10#4 16#8) = some 16#8) ∧
    (badRegisterOperand (.digitalRead 15#8) = false ∧ pinOperand (.digitalRead 15#8) = some 15#8 ∧
      15#8 ≤ 15#8 ∧ issuesFrames (.digitalRead 15#8) = true ∧ State.reset.valid = false) := by decide
/-- IllegalWordsAnswerIllegalCommand: with an empty agenda, and on a turn of it. -/
theorem witness_illegal_step :
    (({ State.reset with host := [0x41FFFFFF#32] } : State).seq = .idle ∧
      ({ State.reset with host := [0x41FFFFFF#32] } : State).agenda = [] ∧
      decode 0x41FFFFFF#32 = .illegal .catNotZero) ∧
    ({ State.reset with host := [0x41FFFFFF#32], agenda := [.radbf, .reset] } : State).agenda =
      .radbf :: [.reset] := by decide
/-- TransportErrorsEndTheCommand: each of the three frames, failing. -/
theorem witness_transport_errors :
    events (exec (.readReg 0x15#8) (idleState 0#8 [] [0] [] [])) =
      some [.writeFrame 0x20#7 [0x15#8] 0, .response .TransportWriteShortfall 0#8] ∧
    events (exec (.readReg 0x15#8) (busyState 0#8 [] [] [.timeout] 0x60150000#32 1 0#8)) =
      some [.readFrame 0x20#7 .timeout, .response .TransportTimeout 0#8] ∧
    events (exec (.writeReg 0x14#8 0xAA#8) (idleState 0#8 [] [1] [] [])) =
      some [.writeFrame 0x20#7 [0x14#8, 0xAA#8] 1, .response .TransportWriteShortfall 0#8] := by decide
/-- IllFormedOperandsAreAnswered: a well-formed command's first step and its step at RD, and an
ill-formed command. -/
theorem witness_operands :
    ((Instr.bitmask 15#8).wellFormed = true ∧ State.reset.seq = .idle ∧
      (nextOf (exec (.bitmask 15#8) State.reset)).isSome = true) ∧
    ((Instr.readReg 0x15#8).wellFormed = true ∧
      (nextOf (exec (.readReg 0x15#8)
        (busyState 0#8 [] [] [answered] 0x60150000#32 1 0#8))).isSome = true) ∧
    ((Instr.bitmask 16#8).wellFormed = false ∧ State.reset.params.pinCheck = true ∧
      (nextOf (exec (.bitmask 16#8) State.reset)).isSome = true) := by decide

/-! The register space. -/

/-- MemoryModelReadsLastWrite: each clause. -/
theorem witness_memory_model :
    ((idleState 0#8 [(0x14, 7#8)] [2] [answered] []).params.deviceModel = .memory ∧
      (idleState 0#8 [(0x14, 7#8)] [2] [answered] []).device.wf = true ∧
      (idleState 0#8 [(0x14, 7#8)] [2] [answered] []).nextAccept 2 = 2 ∧
      (idleState 0#8 [(0x14, 7#8)] [2] [answered] []).readOutcome 0x14#8 = .byte 7#8) ∧
    (idleState 0#8 [(0x14, 7#8)] [1] [] []).nextAccept 2 < 2 := by decide
/-- OracleReadsAreDraws: each clause. -/
theorem witness_oracle :
    State.reset.params.deviceModel = .oracle ∧
    ({ State.reset with replies := [.byte 0x5A#8] } : State).replies = .byte 0x5A#8 :: [] ∧
    (nextOf (exec (.beginBus 1#8) State.reset)).isSome = true := by decide
/-- RegisterSpaceWritesReadBack. -/
theorem witness_register_space :
    Memory.wf [(0x00, 1#8), (0x15, 2#8)] = true ∧ definedOffset 0x0A = true ∧
      definedOffset 0x0C = true ∧ (0x15 : Nat) ≠ 0x0A := by decide

/-! Steps. -/

/-- StepRunsTheDecodedCommand: the four ways RADBF gets its turn. -/
theorem witness_step_clauses :
    (decode 0x80140F05#32 = .command (.setBits 0x14#8 0x0F#8 0x05#8)) ∧
    ((idleState 0#8 [] [] [] [0x80140F05#32]).agenda = [] ∧
      (idleState 0#8 [] [] [] [0x80140F05#32]).host = 0x80140F05#32 :: []) ∧
    ((busyState 0#8 [] [] [] 0x80140F05#32 2 0#8).agenda = [] ∧
      (busyState 0#8 [] [] [] 0x80140F05#32 2 0#8).seq = .busy 0x80140F05#32 2) ∧
    ({ idleState 0#8 [] [] [] [0x80140F05#32] with agenda := [.radbf] } : State).agenda = .radbf :: [] ∧
    ({ busyState 0#8 [] [] [] 0x80140F05#32 2 0#8 with agenda := [.radbf] } : State).agenda =
      .radbf :: [] := by decide
/-- CommandsAreAcceptedInIdleOnly: a step that takes a word. -/
theorem witness_accepts :
    (nextOf (step { State.reset with host := [0x30030000#32] })).any (fun t => t.host = []) = true := by
  decide
/-- IdleWaitsForTheHost: with an empty agenda, and on a turn of it. -/
theorem witness_waits :
    State.reset.seq = .idle ∧ State.reset.host = [] ∧ State.reset.agenda = [] ∧
    ({ State.reset with agenda := [.radbf] } : State).agenda = .radbf :: [] := by decide
/-- ResetAbandonsTheCommand. -/
theorem witness_reset_turn :
    ({ busyState 7#8 [] [] [] 0x80140F05#32 2 0xA0#8 with agenda := [.reset] } : State).agenda =
      .reset :: [] := by decide
/-- InterferenceWaitsForARegisterRead: outside a register read (just before it and just after), and
inside one. -/
theorem witness_interference_clauses :
    ({ idleState 7#8 [] [] [] [] with agenda := [.interfere .OLATA 0xFF#8] } : State).insideRegisterRead =
      false ∧
    (busyState 7#8 [] [] [] 0x80140F05#32 2 0#8).insideRegisterRead = false ∧
    (busyState 7#8 [] [] [] 0x80140F05#32 1 0#8).seq = .busy 0x80140F05#32 1 ∧
    readsRegister (.setBits 0x14#8 0x0F#8 0x05#8) = true ∧
    (busyState 7#8 [] [] [] 0x10010000#32 1 0#8).insideRegisterRead = false := by decide
/-- OnlyBeginAndResetWriteBusAddr: a step by BEGIN and a step by reset, both changing BUSADDR. -/
theorem witness_busAddr_clauses :
    (nextOf (step { State.reset with seq := .busy 0x10010000#32 1 })).any
      (fun t => t.busAddr != State.reset.busAddr) = true ∧
    (nextOf (step { idleState 7#8 [] [] [] [] with agenda := [.reset] })).any
      (fun t => t.busAddr != validBusAddr 0x27#7) = true := by decide
/-- FramesCarryDefinedOffsets, ParametersNeverChange. -/
theorem witness_frames :
    events (step (idleState 0#8 [] [1] [] [0x60150000#32])) = some [.writeFrame 0x20#7 [0x15#8] 1] ∧
    events (step (busyState 0#8 [] [] [answered] 0x60150000#32 1 0#8)) =
      some [.readFrame 0x20#7 (.byte 0#8)] := by decide

/-! Runs. -/

/-- A state between commands, with commands to come, meets the invariant. -/
theorem witness_invariant (acks : List Nat) (host : List Word) :
    Inv (idleState 7#8 [(0x14, 0xA0#8)] acks [] host) where
  addrLegal := by
    intro _
    show legalBusAddress ((validBusAddr (busAddress 7#8)).extractLsb' 0 7) = true
    decide
  deviceWf := rfl
  busyRunning := nofun
  readAddressed := nofun
  responseLegal := nofun
  traceLegal := nofun
/-- StepsKeepTheInvariant, RadbfNeverStops, HostSequencesAreAnsweredOnceEach. -/
theorem witness_invariant_step :
    (nextOf (step (idleState 7#8 [(0x14, 0xA0#8)] [1] [] [0x60140000#32]))).isSome = true := by decide

/-- In the middle of READ_REG OLATA, its address frame accepted. -/
def readingState : State :=
  { busyState 7#8 [(0x14, 0xA0#8)] [] [answered] 0x60140000#32 1 0#8 with
    trace := [.writeFrame 0x27#7 [0x14#8] 1] }
/-- ReadFramesFollowTheirAddressFrame: the state. -/
theorem witness_reading_invariant : Inv readingState where
  addrLegal := by intro _; rfl
  deviceWf := rfl
  busyRunning := by
    intro w k h
    cases h
    exact ⟨rfl, .readReg 0x14#8, by decide, by decide, fun _ => by decide⟩
  readAddressed := by
    intro w i h _ _
    cases h
    exact ⟨[], 0x14#8, rfl⟩
  responseLegal := nofun
  traceLegal := by
    intro e he
    cases he with
    | head => rfl
    | tail _ h => cases h
/-- ReadFramesFollowTheirAddressFrame: the step. -/
theorem witness_reading_step :
    events (step readingState) =
      some (readingState.trace ++ .readFrame 0x27#7 (.byte 0xA0#8) :: []) := by decide
/-- CommandsAnswerWithinFourSteps: from SEQ = IDLE with a command to come, and from SEQ = BUSY. -/
theorem witness_answering :
    ((idleState 7#8 [(0x14, 0xA0#8)] [1] [] [0x60140000#32]).agenda = [] ∧
      (idleState 7#8 [(0x14, 0xA0#8)] [1] [] [0x60140000#32]).host ≠ []) ∧
    readingState.agenda = [] ∧ readingState.seq ≠ .idle := by decide
/-- PinAndPortCommandsIssueRegisterFrames: both ports, the last pin. -/
theorem witness_frame_equivalence :
    State.reset.seq = .idle ∧ (0x12#8 = 0x12#8 ∨ 0x12#8 = 0x13#8) ∧ (0x13#8 = 0x12#8 ∨ 0x13#8 = 0x13#8) ∧
      15#8 ≤ 15#8 := by decide

/-- P3 command 5, ready to run with every frame answered, and an agenda. -/
def rmwState (agenda : List Turn) : State :=
  { idleState 7#8 [(0x14, 0xA0#8)] [1, 2] [answered] [0x80140F05#32] with agenda := agenda }
/-- ReadModifyWriteKeepsOtherBits. -/
theorem witness_rmw :
    rmwTarget (.setBits 0x14#8 0x0F#8 0x05#8) = some (0x14#8, 0x0F#8, 0x05#8) ∧
    firstError (.setBits 0x14#8 0x0F#8 0x05#8) (rmwState []) = none ∧ (rmwState []).seq = .idle ∧
    (rmwState []).params.deviceModel = .memory ∧ (rmwState []).device.wf = true ∧
    (rmwState []).agenda = [] ∧
    (rmwState []).host = encode (.setBits 0x14#8 0x0F#8 0x05#8) :: [] ∧
    (rmwState []).nextAccept 1 = 1 ∧ (rmwState []).takeAccept.nextAccept 2 = 2 ∧
    (rmwState []).nextReply ≠ .timeout := by decide
/-- RaceLosesTheInterferingWrite, the race of P3: to the same register and to another. -/
theorem witness_race :
    ∀ g ∈ [DevReg.OLATA, .OLATB],
      let s := rmwState [.radbf, .radbf, .interfere g 0xFF#8, .radbf, .radbf]
      firstError (.setBits 0x14#8 0x0F#8 0x05#8) s = none ∧ s.seq = .idle ∧
      s.params.deviceModel = .memory ∧ s.device.wf = true ∧
      s.agenda = .radbf :: .radbf :: .interfere g 0xFF#8 :: .radbf :: .radbf :: [] ∧
      s.host = encode (.setBits 0x14#8 0x0F#8 0x05#8) :: [] ∧
      s.nextAccept 1 = 1 ∧ s.takeAccept.nextAccept 2 = 2 ∧ s.nextReply ≠ .timeout ∧
      (g = .OLATB → devRegOffset g ≠ 0x14#8) := by decide
/-- DigitalWriteThenReadRoundTrips: W3, p = 12. -/
theorem witness_round_trip :
    let s := idleState 0#8 [] [1, 2, 1] [answered, answered] [0xB00C0100#32, 0xC00C0000#32]
    12#8 ≤ 15#8 ∧ s.valid = true ∧ s.seq = .idle ∧ s.params.deviceModel = .memory ∧
    s.device.wf = true ∧ s.agenda = [] ∧
    s.host = encode (.digitalWrite 12#8 1#8) :: encode (.digitalRead 12#8) :: [] ∧
    s.nextAccept 1 = 1 ∧ s.takeAccept.nextAccept 2 = 2 ∧ s.takeAccept.takeAccept.nextAccept 1 = 1 ∧
    s.nextReply ≠ .timeout ∧ s.takeReply.nextReply ≠ .timeout := by decide

end Sys2Proof.Tests
end

/-! PROOFS. The state and its steps (10_state.md): what a step of a command, and of the whole machine,
keeps and records; the invariant of a run; how a run answers. -/

namespace Sys2Proof.Machine

/-! ## What a command's operands name -/

/-- The decoder reads the encoder's word as the command (R71 to R74). -/
theorem decode_encode (i : Instr) : decode (encode i) = .command i := by
  cases i with
  | beginBus sel => exact Laws.RoundTrip.beginBus sel
  | resolve t p => exact Laws.RoundTrip.resolve t p
  | bitmask p => exact Laws.RoundTrip.bitmask p
  | insert n mask value => exact Laws.RoundTrip.insert n mask value
  | extract n p => exact Laws.RoundTrip.extract n p
  | readReg r => exact Laws.RoundTrip.readReg r
  | writeReg r v => exact Laws.RoundTrip.writeReg r v
  | setBits r mask value => exact Laws.RoundTrip.setBits r mask value
  | pinMode p b => exact Laws.RoundTrip.pinMode p b
  | portMode q m => exact Laws.RoundTrip.portMode q m
  | digitalWrite p b => exact Laws.RoundTrip.digitalWrite p b
  | digitalRead p => exact Laws.RoundTrip.digitalRead p
  | portWrite q v => exact Laws.RoundTrip.portWrite q v
  | portRead q => exact Laws.RoundTrip.portRead q
  | setPolarity p b => exact Laws.RoundTrip.setPolarity p b
  | setInterrupt p b => exact Laws.RoundTrip.setInterrupt p b
  | setPullup p b => exact Laws.RoundTrip.setPullup p b

/-- R190: a selector gives an address in 0x20..0x27. -/
theorem legalBusAddress_busAddress (sel : Byte) : legalBusAddress (busAddress sel) = true := by
  revert sel
  decide

/-- R108: every pin of a register pair resolves to a defined offset. -/
theorem inDef_resolvePin (p : Byte) {t : Nibble} (ht : paired t = true) :
    inDef (resolvePin p t) = true := by
  unfold resolvePin
  revert t
  cases half p <;> decide

/-- R104: a port identifier is a defined offset. -/
theorem inDef_of_validPort {q : Byte} (hq : validPort q = true) : inDef q = true := by
  revert q
  decide

theorem inDef_resolvePortDirection (q : Byte) : inDef (resolvePortDirection q) = true := by
  unfold resolvePortDirection
  cases portHalf q <;> decide

/-- The device register the frames of a command are about, none for a command without frames. -/
def frameRegister : Instr → Option Byte
  | .readReg r => some r
  | .writeReg r _ => some r
  | .setBits r _ _ => some r
  | .pinMode p _ => some (resolvePin p 0#4)
  | .portMode q _ => some (resolvePortDirection q)
  | .digitalWrite p _ => some (resolvePin p 9#4)
  | .digitalRead p => some (resolvePin p 9#4)
  | .portWrite q _ => some q
  | .portRead q => some q
  | .setPolarity p _ => some (resolvePin p 1#4)
  | .setInterrupt p _ => some (resolvePin p 2#4)
  | .setPullup p _ => some (resolvePin p 6#4)
  | .beginBus _ => none
  | .resolve _ _ => none
  | .bitmask _ => none
  | .insert _ _ _ => none
  | .extract _ _ => none

/-- Every frame of a command is about its register. -/
theorem offset_of_microOps (i : Instr) (n : Byte) :
    ∀ op ∈ microOps i n, op.offset? = none ∨ op.offset? = frameRegister i := by
  cases i <;> simp [microOps, microOps.pinOps, MicroOp.offset?, frameRegister]

/-- A command's frames are about a defined offset, once its operand checks pass (R42, R147). -/
theorem frameRegister_inDef {i : Instr} {r : Byte} (hr : frameRegister i = some r)
    (hb : badRegisterOperand i = false) : issuesFrames i = true ∧ inDef r = true := by
  cases i <;> simp only [frameRegister, Option.some.injEq, reduceCtorEq] at hr <;> subst hr <;>
    refine ⟨rfl, ?_⟩
  case readReg | writeReg | setBits => simpa [badRegisterOperand] using hb
  case portWrite | portRead => exact inDef_of_validPort (by simpa [badRegisterOperand] using hb)
  case portMode => exact inDef_resolvePortDirection _
  all_goals exact inDef_resolvePin _ rfl

theorem frameRegister_eq_none {i : Instr} (hi : issuesFrames i = false) : frameRegister i = none := by
  cases i <;> simp_all [issuesFrames, frameRegister]

/-- The checks pass only with a register operand that exists and, for frames, with an address. -/
theorem firstError_none {i : Instr} {s : State} (h : firstError i s = none) :
    badRegisterOperand i = false ∧ (issuesFrames i = true → s.valid = true) := by
  unfold firstError at h
  split at h
  next => cases h
  next hb =>
    split at h
    next => cases h
    next =>
      split at h
      next => cases h
      next hv => exact ⟨by simpa using hb, fun hi => by simpa [hi] using hv⟩

/-- A command whose checks passed never faults at a frame (R21, R42, R206). -/
theorem frameFault_of_checked {i : Instr} {s : State} {n : Byte} {op : MicroOp}
    (he : firstError i s = none) (hop : op ∈ microOps i n) : frameFault op s = none := by
  obtain ⟨hb, hv⟩ := firstError_none he
  rcases offset_of_microOps i n op hop with h | h
  · simp [frameFault, h]
  · cases hr : frameRegister i with
    | none => simp [frameFault, h, hr]
    | some r =>
      obtain ⟨hi, hd⟩ := frameRegister_inDef hr hb
      simp [frameFault, h, hr, hv hi, hd]

/-! ## What a micro-operation records -/

/-- The event of a micro-operation: its frame (R46, R47), TINIT, or the response of a FIN (R27). -/
def MicroOp.event (op : MicroOp) (s : State) : Event :=
  match op with
  | .w1 r => .writeFrame s.addr [r] (s.nextAccept 1)
  | .rd r => .readFrame s.addr (s.readOutcome r)
  | .w2 r v => .writeFrame s.addr [r, v] (s.nextAccept 2)
  | .tinit => .tinit
  | .fin v => .response .OK v
  | .finBegin _ => .response .OK 0x00#8

/-- The transport error of a frame that fails (R140, R143). -/
def MicroOp.error? (op : MicroOp) (s : State) : Option Status :=
  match op with
  | .w1 _ => if s.nextAccept 1 < 1 then some .TransportWriteShortfall else none
  | .rd r =>
    match s.readOutcome r with
    | .timeout => some .TransportTimeout
    | .byte _ => none
  | .w2 _ _ => if s.nextAccept 2 < 2 then some .TransportWriteShortfall else none
  | .tinit => none
  | .fin _ => none
  | .finBegin _ => none

/-- What a micro-operation adds to the record: its event and, where its frame fails, the error's
response. -/
def MicroOp.events (op : MicroOp) (s : State) : List Event :=
  op.event s :: (op.error? s).toList.map (fun e => .response e 0x00#8)

theorem microStep_trace_eq (op : MicroOp) (s : State) :
    (microStep op s).trace = s.trace ++ op.events s := by
  cases op <;> simp only [microStep] <;> repeat' split
  all_goals simp_all [State.raise, State.respond, MicroOp.events, MicroOp.event, MicroOp.error?]

theorem mem_events {op : MicroOp} {s : State} {e : Event} (h : e ∈ op.events s) :
    e = op.event s ∨ ∃ st, op.error? s = some st ∧ e = .response st 0x00#8 := by
  simpa [MicroOp.events, eq_comm] using h

/-- A frame is recorded with the address, the offset and the outcome it had (R43, R44, R46, R47). -/
theorem MicroOp.event_legal {op : MicroOp} {s : State} (hf : frameFault op s = none)
    (ha : s.valid = true → legalBusAddress s.addr = true) : (op.event s).legal = true := by
  cases op with
  | w1 r =>
    obtain ⟨hv, hr⟩ := frameFault_none hf r rfl
    simp [event, Event.legal, legalPayload, ha hv, hr, State.nextAccept_le]
  | rd r => simp [event, Event.legal, ha (frameFault_none hf r rfl).1]
  | w2 r v =>
    obtain ⟨hv, hr⟩ := frameFault_none hf r rfl
    simp [event, Event.legal, legalPayload, ha hv, hr, State.nextAccept_le]
  | tinit => rfl
  | fin v => rfl
  | finBegin a => rfl

theorem events_legal {op : MicroOp} {s : State} (hf : frameFault op s = none)
    (ha : s.valid = true → legalBusAddress s.addr = true) : ∀ e ∈ op.events s, e.legal = true := by
  intro e he
  rcases mem_events he with rfl | ⟨st, -, rfl⟩
  · exact MicroOp.event_legal hf ha
  · simp [Event.legal]

/-! ## The invariant of a run -/

/-- An interference write or a register-write frame on a defined offset keeps the canonical form. -/
theorem State.deviceAfter_wf {s : State} {r : Byte} (v : Byte) (hd : s.device.wf = true)
    (hr : inDef r = true) : (s.deviceAfter r v).wf = true := by
  unfold deviceAfter
  split
  · exact hd
  · exact Memory.write_keeps_wf hr hd

theorem microStep_keeps_wf {op : MicroOp} {s : State} (hd : s.device.wf = true)
    (hf : frameFault op s = none) : (microStep op s).device.wf = true := by
  by_cases h : ∃ r v, op = .w2 r v
  · obtain ⟨r, v, rfl⟩ := h
    have hw : (s.valueFrame r v).device.wf = true := by
      rw [State.valueFrame_device]
      split
      · exact State.deviceAfter_wf v hd (frameFault_none hf r rfl).2
      · exact hd
    simp only [microStep]
    split <;> simpa [State.raise] using hw
  · rw [microStep_device op s fun r v hop => h ⟨r, v, hop⟩]
    exact hd

/-- A reset leaves no address (R34, R230). -/
@[simp] theorem State.applyReset_valid (s : State) : s.applyReset.valid = false := by
  simp [valid, applyReset, reset]

/-- An error response overwrites what accepting the command set. -/
theorem State.raise_accept (s : State) (w : Word) (e : Status) :
    (s.accept w).raise e = s.raise e := rfl

theorem inDef_devRegOffset (g : DevReg) : inDef (devRegOffset g) = true := by
  cases g <;> rfl

namespace Inv

/-- The invariant says nothing of the agenda and of the host's list. -/
theorem withLists {s : State} (h : Inv s) (turns : List Turn) (words : List Word) :
    Inv { s with agenda := turns, host := words } :=
  ⟨h.addrLegal, h.deviceWf, h.busyRunning, h.readAddressed, h.responseLegal, h.traceLegal⟩

/-- The record extended by a legal event. -/
theorem trace_append {s : State} (h : Inv s) {added : List Event}
    (ha : ∀ e ∈ added, e.legal = true) : ∀ e ∈ s.trace ++ added, e.legal = true := by
  intro e he
  rcases List.mem_append.1 he with he | he
  · exact h.traceLegal e he
  · exact ha e he

/-- A command taken in IDLE is at its first micro-operation (R26). -/
theorem accept {s : State} (h : Inv s) (i : Instr) : Inv (s.accept (encode i)) where
  addrLegal := h.addrLegal
  deviceWf := h.deviceWf
  busyRunning := by
    intro w k hs
    cases hs
    exact ⟨rfl, i, decode_encode i, microCount_pos i, fun hk => absurd hk (lt_irrefl 0)⟩
  readAddressed := by
    intro w j hs
    cases hs
  responseLegal := nofun
  traceLegal := h.traceLegal

/-- A response with RESULT 0x00 on an error ends the command (R27). -/
theorem deliver {s : State} (h : Inv s) {st : Status} {v : Byte} (hv : st = .OK ∨ v = 0x00#8) :
    Inv (s.deliver st v) where
  addrLegal := h.addrLegal
  deviceWf := h.deviceWf
  busyRunning := nofun
  readAddressed := nofun
  responseLegal := by
    intro r hr
    cases hr
    exact hv
  traceLegal := h.trace_append (added := [.response st v]) (by simpa [Event.legal] using hv)

theorem raise {s : State} (h : Inv s) (e : Status) : Inv (s.raise e) := h.deliver (.inr rfl)

/-- R230. -/
theorem applyReset {s : State} (h : Inv s) : Inv s.applyReset where
  addrLegal := by simp
  deviceWf := h.deviceWf
  busyRunning := nofun
  readAddressed := nofun
  responseLegal := nofun
  traceLegal := h.trace_append (added := [.reset]) (by simp [Event.legal])

/-- An interference write outside a register read (R55) leaves the record of an address frame alone,
since no read is about to follow. -/
theorem interfere {s : State} (h : Inv s) (hin : s.insideRegisterRead = false) (g : DevReg)
    (v : Byte) : Inv (s.interfere g v) where
  addrLegal := by simpa [State.interfere] using h.addrLegal
  deviceWf := by
    rw [State.interfere, State.deviceSet_device]
    exact State.deviceAfter_wf v h.deviceWf (inDef_devRegOffset g)
  busyRunning := by
    intro w k hs
    obtain ⟨hresp, i, hd, hk, hc⟩ := h.busyRunning w k (by simpa [State.interfere] using hs)
    refine ⟨by simpa [State.interfere] using hresp, i, hd, hk, fun h0 => ?_⟩
    rw [← hc h0]
    exact firstError_congr i s _ (by simp [State.interfere]) (by simp [State.interfere])
  readAddressed := by
    intro w i hs hd hr
    have := (State.insideRegisterRead_iff s).2 ⟨w, i, by simpa [State.interfere] using hs, hd, hr⟩
    simp [hin] at this
  responseLegal := by simpa [State.interfere] using h.responseLegal
  traceLegal := by
    rw [State.interfere, State.deviceSet_trace, State.record_trace]
    exact h.trace_append (by simp [Event.legal])

/-- A command in progress that decodes is the command the invariant speaks of. -/
theorem running {s : State} (h : Inv s) {w : Word} {k : Nat} {i : Instr} (hs : s.seq = .busy w k)
    (hd : decode w = .command i) :
    s.response = none ∧ k < microCount i ∧ (0 < k → firstError i s = none) := by
  obtain ⟨hresp, j, hj, hk, hc⟩ := h.busyRunning w k hs
  cases hj.symm.trans hd
  exact ⟨hresp, hk, hc⟩

/-- BUSADDR after a micro-operation: what it was, or what BEGIN writes (R21, R191). -/
theorem microStep_addrLegal {s : State} (h : Inv s) {i : Instr} {n : Byte} {k : Nat} {op : MicroOp}
    (hop : (microOps i n)[k]? = some op) :
    (microStep op s).valid = true → legalBusAddress (microStep op s).addr = true := by
  by_cases hb : ∃ a, op = .finBegin a
  · obtain ⟨a, rfl⟩ := hb
    obtain ⟨-, sel, -, rfl⟩ := finBegin_index hop
    simp [microStep, State.respond, legalBusAddress_busAddress]
  · have := microStep_busAddr op s fun a ha => hb ⟨a, ha⟩
    simpa [State.valid, State.addr, this] using h.addrLegal

/-- A micro-operation of a command in progress whose checks passed keeps the invariant. -/
theorem microStep {s : State} (h : Inv s) {w : Word} {k : Nat} {i : Instr} {n : Byte} {op : MicroOp}
    (hs : s.seq = .busy w k) (hd : decode w = .command i) (hop : (microOps i n)[k]? = some op)
    (hc : firstError i s = none) (hf : frameFault op s = none) : Inv (microStep op s) where
  addrLegal := h.microStep_addrLegal hop
  deviceWf := microStep_keeps_wf h.deviceWf hf
  busyRunning := by
    intro v j hj
    rcases microStep_seq op hs with ⟨st, x, hi, -⟩ | ⟨hb, hresp, hnf⟩
    · simp [hi] at hj
    · cases hb.symm.trans hj
      have hbus := microStep_busAddr op s hnf.2
      refine ⟨hresp.trans (h.running hs hd).1, i, hd, goes_on hop hnf, fun _ => ?_⟩
      rw [← hc]
      exact firstError_congr i s _ (microStep_others op s).1 (by simp [State.valid, hbus])
  readAddressed := by
    intro v j hj hdj hr
    rcases microStep_seq op hs with ⟨st, x, hi, -⟩ | ⟨hb, -⟩
    · simp [hi] at hj
    · cases hb.symm.trans hj
      cases hd.symm.trans hdj
      obtain ⟨r, rfl⟩ := first_of_reads hop hr
      by_cases ha : s.nextAccept 1 < 1
      · simp [Machine.microStep, ha, State.raise] at hj
      · have h1 : s.nextAccept 1 = 1 := Nat.le_antisymm (s.nextAccept_le 1) (Nat.not_lt.1 ha)
        exact ⟨s.trace, r, by simp [Machine.microStep, h1]⟩
  responseLegal := by
    intro r hr
    rcases microStep_seq op hs with ⟨st, x, -, hx, hv⟩ | ⟨-, hresp, -⟩
    · cases hx.symm.trans hr
      exact hv
    · rw [hresp] at hr
      exact h.responseLegal r hr
  traceLegal := by
    rw [microStep_trace_eq]
    exact h.trace_append (events_legal hf h.addrLegal)

/-- A step of a command that is taken in IDLE or in progress keeps the invariant. -/
theorem exec {s t : State} (h : Inv s) {i : Instr} (hi : ∀ w k, s.seq = .busy w k → decode w = .command i)
    (ht : exec i s = .next t) : Inv t := by
  have hb : Inv (s.begun (encode i)) ∧
      ∃ w, (s.begun (encode i)).seq = .busy w s.microIndex ∧ decode w = .command i := by
    cases hs : s.seq with
    | idle =>
      rw [State.begun_idle hs, State.microIndex_idle hs]
      exact ⟨h.accept i, encode i, rfl, decode_encode i⟩
    | busy w k =>
      rw [State.begun_busy hs, State.microIndex_busy hs]
      exact ⟨h, w, hs, hi w k hs⟩
  obtain ⟨hinv, w, hseq, hd⟩ := hb
  have hcongr := firstError_congr i s (s.begun (encode i)) (by simp) (by simp)
  rcases exec_cases ht with ⟨-, e, -, rfl⟩ | ⟨op, hop, hc, hf, rfl⟩
  · exact hinv.raise e
  · refine hinv.microStep hseq hd hop ?_ hf
    rcases Nat.eq_zero_or_pos s.microIndex with h0 | h0
    · exact hcongr.trans (hc h0)
    · exact (hinv.running hseq hd).2.2 h0

/-- RADBF's turn keeps the invariant. -/
theorem sequencerTurn {s t : State} (h : Inv s) (ht : sequencerTurn s = .next t) : Inv t := by
  have htake : Inv s.takeCommand := h.withLists s.agenda s.host.tail
  rcases sequencerTurn_cases ht with ⟨-, -, rfl⟩ | ⟨w, rest, reason, hs, -, -, rfl⟩ |
    ⟨w, rest, i, hs, -, -, hx⟩ | ⟨w, k, reason, hs, hd, rfl⟩ | ⟨w, k, i, hs, hd, hx⟩
  · exact h
  · rw [State.raise_accept]
    exact htake.raise _
  · exact htake.exec (fun v k hv => by simp [hs] at hv) hx
  · exact h.raise _
  · refine h.exec (fun v j hv => ?_) hx
    cases hs.symm.trans hv
    exact hd

end Inv

/-- Settles O46: nothing is in progress, listed, pending or recorded after reset. -/
theorem resetMeetsTheInvariant : Obligations.ResetMeetsTheInvariant :=
  ⟨nofun, rfl, nofun, nofun, nofun, nofun⟩

/-- Settles O47, by the agent that moves: a reset, an interference write, or RADBF's turn. -/
theorem stepsKeepTheInvariant : Obligations.StepsKeepTheInvariant := by
  intro s t h ht
  rcases step_cases ht with ⟨rest, -, rfl⟩ | ⟨g, v, rest, -, hin, rfl⟩ | ⟨rest, -, hx⟩
  · exact (h.withLists rest s.host).applyReset
  · exact (h.withLists rest s.host).interfere hin g v
  · exact (h.withLists rest s.host).sequencerTurn hx

end Sys2Proof.Machine

/-! PROOFS. What a step of a command, and of the whole machine, leaves unchanged and what it records
(10_state.md R21, R25, R26, R33; 20_memory.md R42 to R46). -/

namespace Sys2Proof.Machine

/-! ## A step of a command -/

section
variable {i : Instr} {s t : State} (h : exec i s = .next t)
include h

/-- The parameters and the other agents' lists (R33). -/
theorem exec_others : t.params = s.params ∧ t.host = s.host ∧ t.agenda = s.agenda := by
  rcases exec_cases h with ⟨-, e, -, rfl⟩ | ⟨op, -, -, -, rfl⟩
  · simp [State.raise]
  · simpa using microStep_others op (s.begun (encode i))

/-- BUSADDR is as before, or the step is BEGIN's FIN (R191). -/
theorem exec_busAddr : t.busAddr = s.busAddr ∨ ∃ sel w, i = .beginBus sel ∧ s.seq = .busy w 1 ∧
    t = (s.setBusAddr (busAddress sel)).respond 0x00#8 := by
  rcases exec_cases h with ⟨-, e, -, rfl⟩ | ⟨op, hop, -, -, rfl⟩
  · simp [State.raise]
  · by_cases hb : ∃ a, op = .finBegin a
    · obtain ⟨a, rfl⟩ := hb
      obtain ⟨hk, sel, rfl, rfl⟩ := finBegin_index hop
      obtain ⟨w, hs⟩ := State.busy_of_microIndex hk
      exact .inr ⟨sel, w, rfl, hs, by rw [State.begun_busy hs]; rfl⟩
    · left
      simpa using microStep_busAddr op (s.begun (encode i)) fun a ha => hb ⟨a, ha⟩

/-- `N` is as before, or the step is the read frame of a command that reads, answered (R140). -/
theorem exec_latchN : t.latchN = s.latchN ∨
    readsRegister i = true ∧ ∃ w, s.seq = .busy w 1 ∧ t.seq = .busy w 2 := by
  rcases exec_cases h with ⟨-, e, -, rfl⟩ | ⟨op, hop, -, -, rfl⟩
  · simp [State.raise]
  · by_cases hr : ∃ r, op = .rd r
    · obtain ⟨r, rfl⟩ := hr
      obtain ⟨hi, hk⟩ := rd_index hop
      obtain ⟨w, hs⟩ := State.busy_of_microIndex hk
      rw [State.begun_busy hs]
      rcases microStep_seq (.rd r) hs with ⟨st, v, hidle, -⟩ | ⟨hbusy, -⟩
      · left
        revert hidle
        simp only [microStep]
        split
        next => simp [State.raise]
        next => simp [State.advance, hs]
      · exact .inr ⟨hi, w, hs, hbusy⟩
    · left
      simpa using microStep_latchN op (s.begun (encode i)) fun r hop => hr ⟨r, hop⟩

/-- A command without frames touches neither the device, nor `N`, nor the transport's draws (R43). -/
theorem exec_without_frames (hi : issuesFrames i = false) :
    t.device = s.device ∧ t.latchN = s.latchN ∧ t.acks = s.acks ∧ t.acceptDraws = s.acceptDraws ∧
      t.replies = s.replies ∧ t.replyDraws = s.replyDraws := by
  rcases exec_cases h with ⟨-, e, -, rfl⟩ | ⟨op, hop, -, -, rfl⟩
  · simp [State.raise]
  · have hoff : op.offset? = none := by
      rcases offset_of_microOps i s.latchN op (List.mem_of_getElem? hop) with ho | ho
      · exact ho
      · rw [ho, frameRegister_eq_none hi]
    cases op with
    | w1 r => cases hoff
    | rd r => cases hoff
    | w2 r v => cases hoff
    | tinit => simp [microStep]
    | fin v => simp [microStep, State.respond]
    | finBegin a => simp [microStep, State.respond]

/-- A step of a command records a failed check's response, or the events of a micro-operation. -/
theorem exec_trace : (∃ e, t.trace = s.trace ++ [.response e 0x00#8]) ∨
    ∃ op, frameFault op s = none ∧ t.trace = s.trace ++ op.events s := by
  rcases exec_cases h with ⟨-, e, -, rfl⟩ | ⟨op, -, -, hf, rfl⟩
  · exact .inl ⟨e, by simp [State.raise]⟩
  · refine .inr ⟨op, ?_, ?_⟩
    · simpa [frameFault] using hf
    · rw [microStep_trace_eq, State.begun_trace]
      cases op <;> simp [MicroOp.events, MicroOp.event, MicroOp.error?]
end

/-- Settles O27, part by part. -/
theorem commandStepsKeepTheRest : Obligations.CommandStepsKeepTheRest := by
  intro i s t h
  obtain ⟨hparams, hhost, hagenda⟩ := exec_others h
  refine ⟨hparams, hhost, hagenda, ?_, fun hne => ?_, fun hne => ?_, exec_without_frames h⟩
  · rcases exec_trace h with ⟨e, ht⟩ | ⟨op, -, ht⟩
    · exact ⟨_, ht⟩
    · exact ⟨_, ht⟩
  · rcases exec_busAddr h with heq | ⟨sel, w, hi, hs, rfl⟩
    · exact absurd heq hne
    · exact ⟨sel, w, hi, hs, rfl⟩
  · exact (exec_latchN h).resolve_left hne

/-! ## RADBF's turn -/

theorem step_of_agenda_nil {s : State} (h : s.agenda = []) : step s = sequencerTurn s := by
  simp [step, nextTurn, h]

theorem step_of_agenda_radbf {s : State} {turns : List Turn} (h : s.agenda = .radbf :: turns) :
    step s = sequencerTurn { s with agenda := turns } := step_radbf (.inr (.inl h))

section
variable {s : State} {w : Word} {i : Instr} {rest : List Word} {k : Nat}

/-- In IDLE, RADBF accepts and starts the host's next command (R26). -/
theorem sequencerTurn_idle (hs : s.seq = .idle) (hh : s.host = w :: rest)
    (hd : decode w = .command i) : sequencerTurn s = exec i { s with host := rest } := by
  simp [sequencerTurn, hs, hh, hd, State.takeCommand]

/-- In BUSY, RADBF goes on with the command in progress (R25). -/
theorem sequencerTurn_busy (hs : s.seq = .busy w k) (hd : decode w = .command i) :
    sequencerTurn s = exec i s := by
  simp [sequencerTurn, hs, hd]
end

/-- The bits of a table row of 32 bits are its word. -/
theorem tableWord_toNat (w : Word) : tableWord 32 w.toNat = w := by
  simp [tableWord, Nat.mod_eq_of_lt w.isLt]

/-- Settles O37: with the agenda empty or a turn of it, the step is RADBF's turn, which runs the decoded
command; `withFetchWord` is a state of the third kind. -/
theorem stepRunsTheDecodedCommand : Obligations.StepRunsTheDecodedCommand := by
  intro s i w hd
  refine ⟨fun rest ha hs hh => ?_, fun k ha hs => ?_, fun rest turns ha hs hh => ?_,
    fun k turns ha hs => ?_, ?_⟩
  · rw [step_of_agenda_nil ha, sequencerTurn_idle hs hh hd]
  · rw [step_of_agenda_nil ha, sequencerTurn_busy hs hd]
  · rw [step_of_agenda_radbf ha]
    exact sequencerTurn_idle hs hh hd
  · rw [step_of_agenda_radbf ha]
    exact sequencerTurn_busy hs hd
  · rw [State.withFetchWord, tableWord_toNat, step_of_agenda_radbf (turns := s.agenda) rfl]
    exact sequencerTurn_idle (rest := s.host) rfl rfl hd

/-- RADBF's turn leaves the parameters alone (R33). -/
theorem sequencerTurn_params {s t : State} (h : sequencerTurn s = .next t) : t.params = s.params := by
  rcases sequencerTurn_cases h with ⟨-, -, rfl⟩ | ⟨w, rest, reason, -, -, -, rfl⟩ |
    ⟨w, rest, i, -, -, -, hx⟩ | ⟨w, k, reason, -, -, rfl⟩ | ⟨w, k, i, -, -, hx⟩
  · rfl
  · rfl
  · exact (exec_others hx).1
  · rfl
  · exact (exec_others hx).1

/-- RADBF's turn leaves the host's list alone, or takes its first word in IDLE (R26). -/
theorem sequencerTurn_host {s t : State} (h : sequencerTurn s = .next t) :
    t.host = s.host ∨ s.seq = .idle ∧ ∃ w, s.host = w :: t.host := by
  rcases sequencerTurn_cases h with ⟨-, -, rfl⟩ | ⟨w, rest, reason, hs, hh, -, rfl⟩ |
    ⟨w, rest, i, hs, hh, -, hx⟩ | ⟨w, k, reason, -, -, rfl⟩ | ⟨w, k, i, -, -, hx⟩
  · exact .inl rfl
  · exact .inr ⟨hs, w, by simp [State.raise, hh]⟩
  · exact .inr ⟨hs, w, by simp [(exec_others hx).2.1, hh]⟩
  · exact .inl rfl
  · exact .inl (exec_others hx).2.1

/-- RADBF's turn leaves BUSADDR alone, or is BEGIN's FIN (R191). -/
theorem sequencerTurn_busAddr {s t : State} (h : sequencerTurn s = .next t) :
    t.busAddr = s.busAddr ∨ ∃ w sel, s.seq = .busy w 1 ∧ decode w = .command (.beginBus sel) ∧
      t = (s.setBusAddr (busAddress sel)).respond 0x00#8 := by
  rcases sequencerTurn_cases h with ⟨-, -, rfl⟩ | ⟨w, rest, reason, -, -, -, rfl⟩ |
    ⟨w, rest, i, hs, -, -, hx⟩ | ⟨w, k, reason, -, -, rfl⟩ | ⟨w, k, i, hs, hd, hx⟩
  · exact .inl rfl
  · exact .inl rfl
  · rcases exec_busAddr hx with heq | ⟨sel, v, -, hv, -⟩
    · exact .inl heq
    · simp [hs] at hv
  · exact .inl rfl
  · rcases exec_busAddr hx with heq | ⟨sel, v, rfl, hv, ht⟩
    · exact .inl heq
    · cases hs.symm.trans hv
      exact .inr ⟨w, sel, hs, hd, ht⟩

/-! ## A step of the machine -/

/-- Settles O43. -/
theorem parametersNeverChange : Obligations.ParametersNeverChange := by
  intro s t ht
  rcases step_cases ht with ⟨rest, -, rfl⟩ | ⟨g, v, rest, -, -, rfl⟩ | ⟨rest, -, hx⟩
  · rfl
  · simp [State.interfere]
  · exact sequencerTurn_params (s := { s with agenda := rest }) hx

/-- In IDLE a command's step is its step from BUSY(cmd, 0) with no response pending (R26): its checks
and its list do not depend on what accepting it sets. -/
theorem exec_of_idle (i : Instr) {s : State} (hs : s.seq = .idle) :
    exec i s = exec i { s with seq := .busy (encode i) 0, response := none } := by
  rw [exec_eq_runCommand, exec_eq_runCommand,
    firstError_congr i s { s with seq := .busy (encode i) 0, response := none } rfl rfl]
  simp [runCommand, hs, State.accept]

/-- Settles O38: no other agent's move takes a command, and RADBF's turn takes one in IDLE only. -/
theorem commandsAreAcceptedInIdleOnly : Obligations.CommandsAreAcceptedInIdleOnly := by
  refine ⟨fun i s hs => exec_of_idle i hs, fun s t ht hne => ?_⟩
  rcases step_cases ht with ⟨rest, -, rfl⟩ | ⟨g, v, rest, -, -, rfl⟩ | ⟨rest, -, hx⟩
  · exact absurd rfl hne
  · exact absurd (by simp [State.interfere]) hne
  · exact (sequencerTurn_host hx).resolve_left hne

/-- Settles O44: no interference write changes BUSADDR, a reset clears VALID, and RADBF's turn changes it
as BEGIN's FIN only. -/
theorem onlyBeginAndResetWriteBusAddr : Obligations.OnlyBeginAndResetWriteBusAddr := by
  intro s t ht hne
  rcases step_cases ht with ⟨rest, ha, rfl⟩ | ⟨g, v, rest, -, -, rfl⟩ | ⟨rest, -, hx⟩
  · exact .inr ⟨rest, ha, State.applyReset_valid _⟩
  · exact absurd (by simp [State.interfere]) hne
  · rcases sequencerTurn_busAddr hx with heq | ⟨w, sel, hs, hd, rfl⟩
    · exact absurd heq hne
    · exact .inl ⟨w, sel, hs, hd, by simp [State.respond, legalBusAddress_busAddress]⟩

/-! ## The frames of a step -/

/-- What a step may add to the record (R21, R25, R42 to R44, R46): at most one frame and one event more; a
frame goes to `ADDR` with `VALID` = 1, and a write frame carries a defined offset and at most one byte. -/
def FramesAllowed (s : State) (added : List Event) : Prop :=
  (∀ a bytes k, Event.writeFrame a bytes k ∈ added →
    s.valid = true ∧ a = s.addr ∧ k ≤ bytes.length ∧
      ∃ r rest, bytes = r :: rest ∧ inDef r = true ∧ rest.length ≤ 1) ∧
  (∀ a o, Event.readFrame a o ∈ added → s.valid = true ∧ a = s.addr) ∧
  added.countP Event.isFrame ≤ 1 ∧ added.length ≤ 2

theorem framesAllowed_nil (s : State) : FramesAllowed s [] := by simp [FramesAllowed]

theorem framesAllowed_singleton (s : State) {e : Event} (he : e.isFrame = false) :
    FramesAllowed s [e] := by
  cases e <;> simp_all [FramesAllowed, Event.isFrame]

/-- A micro-operation that does not fault issues one allowed frame or none. -/
theorem framesAllowed_events {op : MicroOp} {s : State} (hf : frameFault op s = none) :
    FramesAllowed s (op.events s) := by
  have hcount : ((op.error? s).toList.map (fun e => Event.response e 0x00#8)).countP Event.isFrame = 0 := by
    simp [Event.isFrame]
  refine ⟨fun a bytes k hm => ?_, fun a o hm => ?_, ?_, ?_⟩
  · rcases mem_events hm with he | ⟨st, -, he⟩
    · cases op <;> cases he
      case w1.refl r =>
        obtain ⟨hv, hr⟩ := frameFault_none hf r rfl
        exact ⟨hv, rfl, s.nextAccept_le 1, r, [], rfl, hr, by simp⟩
      case w2.refl r v =>
        obtain ⟨hv, hr⟩ := frameFault_none hf r rfl
        exact ⟨hv, rfl, s.nextAccept_le 2, r, [v], rfl, hr, by simp⟩
    · cases he
  · rcases mem_events hm with he | ⟨st, -, he⟩
    · cases op <;> cases he
      case rd.refl r => exact ⟨(frameFault_none hf r rfl).1, rfl⟩
    · cases he
  · rw [MicroOp.events, List.countP_cons, hcount]
    split <;> simp
  · cases h : op.error? s <;> simp [MicroOp.events, h]

theorem exec_frames {i : Instr} {s t : State} (h : exec i s = .next t) :
    ∃ added, t.trace = s.trace ++ added ∧ FramesAllowed s added := by
  rcases exec_trace h with ⟨e, ht⟩ | ⟨op, hf, ht⟩
  · exact ⟨_, ht, framesAllowed_singleton s rfl⟩
  · exact ⟨_, ht, framesAllowed_events hf⟩

theorem sequencerTurn_frames {s t : State} (h : sequencerTurn s = .next t) :
    ∃ added, t.trace = s.trace ++ added ∧ FramesAllowed s added := by
  rcases sequencerTurn_cases h with ⟨-, -, rfl⟩ | ⟨w, rest, reason, -, -, -, rfl⟩ |
    ⟨w, rest, i, -, -, -, hx⟩ | ⟨w, k, reason, -, -, rfl⟩ | ⟨w, k, i, -, -, hx⟩
  · exact ⟨[], by simp, framesAllowed_nil t⟩
  · exact ⟨_, rfl, framesAllowed_singleton s rfl⟩
  · exact exec_frames (s := s.takeCommand) hx
  · exact ⟨_, rfl, framesAllowed_singleton s rfl⟩
  · exact exec_frames hx

/-- Settles O45: a reset and an interference write record no frame; RADBF's turn records what its
micro-operation does. -/
theorem framesCarryDefinedOffsets : Obligations.FramesCarryDefinedOffsets := by
  intro s t ht
  rcases step_cases ht with ⟨rest, -, rfl⟩ | ⟨g, v, rest, -, -, rfl⟩ | ⟨rest, -, hx⟩
  · exact ⟨[.reset], rfl, framesAllowed_singleton s rfl⟩
  · exact ⟨[.interference g v], by simp [State.interfere], framesAllowed_singleton s rfl⟩
  · exact sequencerTurn_frames (s := { s with agenda := rest }) hx

/-- Settles O40: the fields are read off the definition. -/
theorem resetStateIsTheTable : Obligations.ResetStateIsTheTable := ⟨rfl, rfl, rfl⟩

end Sys2Proof.Machine

/-! PROOFS. How a run answers (10_state.md R25 to R27, 70_reset_and_hazards.md R235), and that the latch
is dead between commands (R28). -/

namespace Sys2Proof.Machine

/-! ## One answer per command -/

/-- How many responses the record holds. -/
def State.responses (s : State) : Nat := s.trace.countP Event.isResponse

/-- In `t` the command of `s` has been answered, once; the host's list and the agenda are as in `s`. -/
structure Answers (s t : State) : Prop where
  idle : t.seq = .idle
  pending : ∃ r, t.response = some r
  once : t.responses = s.responses + 1
  host : t.host = s.host
  agenda : t.agenda = s.agenda

/-- In `t` the command of `s` has gone on to its next micro-operation, without a response. -/
structure Advances (s : State) (w : Word) (k : Nat) (t : State) : Prop where
  busy : t.seq = .busy w (k + 1)
  quiet : t.responses = s.responses
  host : t.host = s.host
  agenda : t.agenda = s.agenda

theorem answers_raise (s : State) (e : Status) : Answers s (s.raise e) :=
  ⟨rfl, ⟨_, rfl⟩, by simp [State.responses, State.raise, Event.isResponse], rfl, rfl⟩

/-- A micro-operation records one response if it ends the command (R27), else none. -/
theorem microStep_responses (op : MicroOp) {s : State} {w : Word} {k : Nat} (hs : s.seq = .busy w k) :
    (microStep op s).responses = s.responses + if (microStep op s).seq = .idle then 1 else 0 := by
  cases op
  case rd r =>
    cases ho : s.readOutcome r <;>
      simp [microStep, ho, hs, State.responses, State.raise, Event.isResponse, State.advance]
  all_goals
    simp only [microStep]
    repeat' split
    all_goals simp_all [State.responses, State.raise, State.respond, Event.isResponse, State.advance]

/-- A micro-operation answers, or the command goes on. -/
theorem microStep_answers_or_advances (op : MicroOp) {s : State} {w : Word} {k : Nat}
    (hs : s.seq = .busy w k) :
    Answers s (microStep op s) ∨ Advances s w k (microStep op s) := by
  obtain ⟨-, hhost, hagenda⟩ := microStep_others op s
  have hcount := microStep_responses op hs
  rcases microStep_seq op hs with ⟨st, v, hidle, hresp, -⟩ | ⟨hbusy, -, -⟩
  · exact .inl ⟨hidle, ⟨_, hresp⟩, by simpa [hidle] using hcount, hhost, hagenda⟩
  · exact .inr ⟨hbusy, by simpa [hbusy] using hcount, hhost, hagenda⟩

/-- Where no check fails, a step of a command is the micro-operation SEQ is at. -/
theorem exec_eq_runMicro {i : Instr} {s : State} (hc : s.microIndex = 0 → firstError i s = none) :
    exec i s = runMicro (microOps i s.latchN) s.microIndex (s.begun (encode i)) := by
  rw [exec_eq_runCommand, runCommand_eq]
  split
  next h => simp only [startCommand, hc h, h]
  next h =>
    obtain ⟨k, hk⟩ := Nat.exists_eq_succ_of_ne_zero h
    obtain ⟨w, hs⟩ := State.busy_of_microIndex hk
    rw [State.begun_busy hs]

/-- A command in progress has a next state: it answers or goes on (R203). -/
theorem exec_answers_or_advances {i : Instr} {s : State} {w : Word} {k : Nat} (h : Inv s)
    (hs : s.seq = .busy w k) (hd : decode w = .command i) :
    ∃ t, exec i s = .next t ∧ (Answers s t ∨ Advances s w k t) := by
  obtain ⟨-, hk, hc⟩ := h.running hs hd
  have hidx := State.microIndex_busy hs
  cases he : firstError i s with
  | some e =>
    have h0 : k = 0 := by
      by_contra hne
      simp [hc (Nat.pos_of_ne_zero hne)] at he
    refine ⟨s.raise e, ?_, .inl (answers_raise s e)⟩
    rw [exec_error (hidx.trans h0) he, State.begun_busy hs]
  | none =>
    have hlt : k < (microOps i s.latchN).length := by rwa [microOps_length]
    have hop := List.getElem?_eq_getElem hlt
    refine ⟨_, ?_, microStep_answers_or_advances (microOps i s.latchN)[k] hs⟩
    rw [exec_eq_runMicro fun _ => he, hidx, State.begun_busy hs, runMicro, hop]
    simp [frameFault_of_checked he (List.getElem_mem hlt)]

/-! ## Runs with the agenda empty -/

/-- Runs of at least one step depend on the first step alone. -/
theorem run_congr {s u : State} (h : step s = step u) (n : Nat) :
    Host.Core.run core (n + 1) s = Host.Core.run core (n + 1) u := by
  have h' : core.step s = core.step u := h
  simp only [Host.Core.run, h']

/-- A command in progress answers within the micro-operations it has left (R25, R27). -/
theorem run_busy_answers {i : Instr} {s : State} {w : Word} {k : Nat} (h : Inv s)
    (ha : s.agenda = []) (hs : s.seq = .busy w k) (hd : decode w = .command i) :
    ∃ n t, n + 1 ≤ microCount i - k ∧ Host.Core.run core (n + 1) s = .next t ∧ Inv t ∧
      Answers s t := by
  induction hm : microCount i - k generalizing s k with
  | zero =>
    have := (h.running hs hd).2.1
    omega
  | succ m ih =>
    obtain ⟨u, hx, hu⟩ := exec_answers_or_advances h hs hd
    have hstep : step s = .next u := by rw [step_of_agenda_nil ha, sequencerTurn_busy hs hd, hx]
    have hinv := stepsKeepTheInvariant s u h hstep
    rcases hu with hans | hadv
    · exact ⟨0, u, by omega, run_succ hstep 0, hinv, hans⟩
    · obtain ⟨n, t, hn, hrun, hinvt, hans⟩ :=
        ih hinv (hadv.agenda.trans ha) hadv.busy (by omega)
      refine ⟨n + 1, t, by omega, (run_succ hstep _).trans hrun, hinvt, hans.idle, hans.pending, ?_,
        hans.host.trans hadv.host, hans.agenda.trans hadv.agenda⟩
      rw [hans.once, hadv.quiet]

/-- A word that matches no row is answered in one step (R75). -/
theorem sequencerTurn_idle_illegal {s : State} {w : Word} {rest : List Word} {reason : Illegal}
    (hs : s.seq = .idle) (hh : s.host = w :: rest) (hd : decode w = .illegal reason) :
    sequencerTurn s = .next (State.raise { s with host := rest } .IllegalCommand) := by
  simp [sequencerTurn, hs, hh, hd, State.raise_accept, State.takeCommand]

/-- Accepting a command is no step of its own: the step after it is the step from IDLE (R26). -/
theorem step_accept (i : Instr) {s : State} (ha : s.agenda = []) (hs : s.seq = .idle) :
    step (s.accept (encode i)) = exec i s := by
  rw [exec_of_idle i hs, step_of_agenda_nil (s := s.accept (encode i)) ha]
  exact sequencerTurn_busy rfl (decode_encode i)

/-- A command presented in IDLE answers within four steps. -/
theorem run_idle_answers {s : State} {w : Word} {rest : List Word} (h : Inv s) (ha : s.agenda = [])
    (hs : s.seq = .idle) (hh : s.host = w :: rest) :
    ∃ n t, n + 1 ≤ 4 ∧ Host.Core.run core (n + 1) s = .next t ∧ Inv t ∧
      Answers { s with host := rest } t := by
  have htaken : Inv { s with host := rest } := h.withLists s.agenda rest
  cases hd : decode w with
  | illegal reason =>
    have hstep := (step_of_agenda_nil ha).trans (sequencerTurn_idle_illegal hs hh hd)
    exact ⟨0, _, by omega, run_succ hstep 0, htaken.raise _, answers_raise _ _⟩
  | command i =>
    have hfirst : step s = step (State.accept { s with host := rest } (encode i)) := by
      rw [step_of_agenda_nil ha, sequencerTurn_idle hs hh hd]
      exact (step_accept i (s := { s with host := rest }) ha hs).symm
    obtain ⟨n, t, hn, hrun, hinv, hans⟩ :=
      run_busy_answers (htaken.accept i) ha rfl (decode_encode i)
    have hfour := microCount_le_four i
    exact ⟨n, t, by omega, (run_congr hfirst n).trans hrun, hinv, hans.idle, hans.pending,
      hans.once, hans.host, hans.agenda⟩

/-- Settles O50: a presented command has at most four micro-operations, one in progress at most as
many left. -/
theorem commandsAnswerWithinFourSteps : Obligations.CommandsAnswerWithinFourSteps := by
  intro s h ha hne
  cases hs : s.seq with
  | idle =>
    obtain ⟨w, rest, hh⟩ := List.exists_cons_of_ne_nil (hne hs)
    obtain ⟨n, t, hn, hrun, -, hans⟩ := run_idle_answers h ha hs hh
    exact ⟨n + 1, t, by omega, hn, hrun, hans.idle, hans.pending,
      fun _ => by rw [hans.host, hh, List.tail_cons], fun hc => absurd rfl hc⟩
  | busy w k =>
    obtain ⟨-, i, hd, -⟩ := h.busyRunning w k hs
    obtain ⟨n, t, hn, hrun, -, hans⟩ := run_busy_answers h ha hs hd
    have hfour := microCount_le_four i
    exact ⟨n + 1, t, by omega, by omega, hrun, hans.idle, hans.pending, nofun, fun _ => hans.host⟩

/-- From IDLE the host's commands are answered one after the other, each in at most four steps. -/
theorem run_idle_ends {s : State} {words : List Word} (h : Inv s) (ha : s.agenda = [])
    (hs : s.seq = .idle) (hh : s.host = words) :
    ∃ n t, n ≤ 4 * words.length ∧ Host.Core.run core n s = .next t ∧ runEnded t = true ∧
      t.responses = s.responses + words.length := by
  induction words generalizing s with
  | nil => exact ⟨0, s, le_rfl, rfl, by simp [runEnded, hs, hh], rfl⟩
  | cons w rest ih =>
    obtain ⟨n, u, hn, hrun, hinv, hans⟩ := run_idle_answers h ha hs hh
    obtain ⟨m, t, hm, hrunt, hend, hcount⟩ :=
      ih hinv (hans.agenda.trans ha) hans.idle hans.host
    have honce : u.responses = s.responses + 1 := hans.once
    refine ⟨n + 1 + m, t, ?_, (run_add hrun).trans hrunt, hend, ?_⟩
    · rw [List.length_cons]
      omega
    · rw [hcount, honce, List.length_cons]
      omega

/-- Settles O52: the command in progress answers, if there is one, and then each waiting command. -/
theorem hostSequencesAreAnsweredOnceEach : Obligations.HostSequencesAreAnsweredOnceEach := by
  intro s h ha
  cases hs : s.seq with
  | idle =>
    obtain ⟨n, t, hn, hrun, hend, hcount⟩ := run_idle_ends h ha hs rfl
    exact ⟨n, t, by omega, hrun, hend, by simpa [State.responses] using hcount⟩
  | busy w k =>
    obtain ⟨-, i, hd, -⟩ := h.busyRunning w k hs
    obtain ⟨n, u, hn, hrun, hinv, hans⟩ := run_busy_answers h ha hs hd
    obtain ⟨m, t, hm, hrunt, hend, hcount⟩ :=
      run_idle_ends hinv (hans.agenda.trans ha) hans.idle hans.host
    have hfour := microCount_le_four i
    refine ⟨n + 1 + m, t, by omega, (run_add hrun).trans hrunt, hend, ?_⟩
    have htotal : t.responses = s.responses + s.host.length + 1 := by
      rw [hcount, hans.once]
      omega
    simpa [State.responses] using htotal

/-! ## The latch -/

/-- The state with another byte in the latch. -/
def State.setLatch (s : State) (b : Byte) : State := { s with latchN := b }

section
variable (s : State) (b : Byte)

@[simp] theorem State.setLatch_microIndex : (s.setLatch b).microIndex = s.microIndex := rfl
@[simp] theorem State.setLatch_addr : (s.setLatch b).addr = s.addr := rfl
@[simp] theorem State.setLatch_nextAccept (len : Nat) :
    (s.setLatch b).nextAccept len = s.nextAccept len := rfl
@[simp] theorem State.setLatch_readOutcome (r : Byte) :
    (s.setLatch b).readOutcome r = s.readOutcome r := rfl
@[simp] theorem frameFault_setLatch (op : MicroOp) :
    frameFault op (s.setLatch b) = frameFault op s := rfl

@[simp] theorem State.setLatch_record (e : Event) :
    (s.setLatch b).record e = (s.record e).setLatch b := rfl
@[simp] theorem State.setLatch_deliver (st : Status) (v : Byte) :
    (s.setLatch b).deliver st v = (s.deliver st v).setLatch b := rfl
@[simp] theorem State.setLatch_setBusAddr (a : BusAddress) :
    (s.setLatch b).setBusAddr a = (s.setBusAddr a).setLatch b := rfl
@[simp] theorem State.setLatch_advance : (s.setLatch b).advance = s.advance.setLatch b := by
  cases hs : s.seq <;> simp [advance, setLatch, hs]
@[simp] theorem State.setLatch_takeAccept : (s.setLatch b).takeAccept = s.takeAccept.setLatch b := by
  cases hs : s.acks <;> simp [takeAccept, setLatch, hs]
@[simp] theorem State.setLatch_takeReply : (s.setLatch b).takeReply = s.takeReply.setLatch b := by
  cases hs : s.replies <;> simp [takeReply, setLatch, hs]
@[simp] theorem State.setLatch_deviceSet (r v : Byte) :
    (s.setLatch b).deviceSet r v = (s.deviceSet r v).setLatch b := by
  cases hs : s.params.deviceModel <;> simp [deviceSet, setLatch, hs]
@[simp] theorem State.setLatch_addressFrame (r : Byte) :
    (s.setLatch b).addressFrame r = (s.addressFrame r).setLatch b := by simp [addressFrame]
@[simp] theorem State.setLatch_readFrame (r : Byte) :
    (s.setLatch b).readFrame r = (s.readFrame r).setLatch b := by simp [readFrame]
@[simp] theorem State.setLatch_valueFrame (r v : Byte) :
    (s.setLatch b).valueFrame r v = (s.valueFrame r v).setLatch b := by
  simp only [valueFrame, setLatch_nextAccept, setLatch_takeAccept, setLatch_addr, setLatch_record,
    setLatch_deviceSet]
  split <;> rfl
@[simp] theorem State.setLatch_begun (w : Word) : (s.setLatch b).begun w = (s.begun w).setLatch b := by
  cases hs : s.seq <;> simp [begun, setLatch, accept, hs]
end

/-- The micro-operations up to the read frame do not depend on the latch. -/
theorem microOps_latch (i : Instr) (n m : Byte) {k : Nat} (hk : k < 2) :
    (microOps i n)[k]? = (microOps i m)[k]? := by
  match k, hk with
  | 0, _ => cases i <;> rfl
  | 1, _ => cases i <;> rfl

/-- A second micro-operation that does not answer is a read frame. -/
theorem second_goes_on {i : Instr} {n : Byte} {op : MicroOp} (h : (microOps i n)[1]? = some op)
    (hop : (∀ v, op ≠ .fin v) ∧ ∀ a, op ≠ .finBegin a) : ∃ r, op = .rd r := by
  cases i <;> simp [microOps, microOps.pinOps] at h <;> subst h <;> simp at hop ⊢

/-- The outcome `r'` from another latch `b` is `r`, or differs in the latch alone, in a state from which
no read frame has yet been passed. -/
def SameButLatch (b : Byte) (r r' : Result) : Prop :=
  r' = r ∨ r' = mapNext (fun t => t.setLatch b) r ∧ ∀ t, r = .next t → t.microIndex < 2

theorem sameButLatch_next {b : Byte} {t : State} (h : t.microIndex < 2) :
    SameButLatch b (.next t) (.next (t.setLatch b)) :=
  .inr ⟨rfl, fun u hu => by cases hu; exact h⟩

/-- A micro-operation other than a read frame neither reads nor writes the latch. -/
theorem microStep_setLatch {op : MicroOp} (h : ∀ r, op ≠ .rd r) (s : State) (b : Byte) :
    microStep op (s.setLatch b) = (microStep op s).setLatch b := by
  cases op with
  | w1 r => by_cases hk : s.nextAccept 1 < 1 <;> simp [microStep, hk, State.raise]
  | rd r => exact absurd rfl (h r)
  | w2 r v => by_cases hk : s.nextAccept 2 < 2 <;> simp [microStep, hk, State.raise]
  | tinit => simp [microStep]
  | fin v => simp [microStep, State.respond]
  | finBegin a => simp [microStep, State.respond]

/-- Up to the read frame, which overwrites the latch unless it times out and the command ends, a
micro-operation leaves the latch dead. -/
theorem microStep_sameButLatch {i : Instr} {n b : Byte} {op : MicroOp} {s : State} {w : Word} {k : Nat}
    (hop : (microOps i n)[k]? = some op) (hs : s.seq = .busy w k) (hk : k < 2) :
    SameButLatch b (.next (microStep op s)) (.next (microStep op (s.setLatch b))) := by
  by_cases hrd : ∃ r, op = .rd r
  · obtain ⟨r, rfl⟩ := hrd
    cases ho : s.readOutcome r with
    | timeout =>
      have hsame : microStep (.rd r) (s.setLatch b) = (microStep (.rd r) s).setLatch b := by
        simp [microStep, ho, State.raise]
      rw [hsame]
      exact sameButLatch_next (by simp [microStep, ho, State.raise, State.microIndex])
    | byte v =>
      left
      simp only [microStep, State.setLatch_readOutcome, ho, State.setLatch_readFrame]
      rfl
  · have hnrd : ∀ r, op ≠ .rd r := fun r hr => hrd ⟨r, hr⟩
    rw [microStep_setLatch hnrd]
    apply sameButLatch_next
    rcases microStep_seq op hs with ⟨st, v, hidle, -⟩ | ⟨hbusy, -, hnf⟩
    · simp [State.microIndex_idle hidle]
    · have hne : k ≠ 1 := by
        rintro rfl
        exact hrd (second_goes_on hop hnf)
      rw [State.microIndex_busy hbusy]
      omega

/-- A step of a command that has not passed its read frame leaves the latch dead. -/
theorem exec_sameButLatch (i : Instr) {s : State} (b : Byte) (hk : s.microIndex < 2) :
    SameButLatch b (exec i s) (exec i (s.setLatch b)) := by
  by_cases hc : s.microIndex = 0 → firstError i s = none
  · rw [exec_eq_runMicro hc, exec_eq_runMicro (s := s.setLatch b) hc, State.setLatch_begun,
      State.setLatch_microIndex]
    unfold runMicro
    rw [microOps_latch i (s.setLatch b).latchN s.latchN hk]
    cases hop : (microOps i s.latchN)[s.microIndex]? with
    | none => exact .inl rfl
    | some op =>
      simp only [frameFault_setLatch]
      cases frameFault op (s.begun (encode i)) with
      | some f => exact .inl rfl
      | none =>
        obtain ⟨w, hw⟩ := State.begun_seq s (encode i)
        exact microStep_sameButLatch hop hw hk
  · obtain ⟨h0, he⟩ := Classical.not_imp.1 hc
    obtain ⟨e, he⟩ := Option.ne_none_iff_exists'.1 he
    rw [exec_error h0 he, exec_error (s := s.setLatch b) h0 he, State.setLatch_begun]
    exact sameButLatch_next (by simp [State.raise, State.microIndex])

theorem sequencerTurn_idle_nil {s : State} (hs : s.seq = .idle) (hh : s.host = []) :
    sequencerTurn s = .next s := by simp [sequencerTurn, hs, hh]

theorem sequencerTurn_busy_illegal {s : State} {w : Word} {k : Nat} {reason : Illegal}
    (hs : s.seq = .busy w k) (hd : decode w = .illegal reason) :
    sequencerTurn s = .next (s.raise .IllegalCommand) := by simp [sequencerTurn, hs, hd]

theorem sequencerTurn_sameButLatch {s : State} (b : Byte) (hk : s.microIndex < 2) :
    SameButLatch b (sequencerTurn s) (sequencerTurn (s.setLatch b)) := by
  cases hs : s.seq with
  | idle =>
    cases hh : s.host with
    | nil =>
      rw [sequencerTurn_idle_nil hs hh, sequencerTurn_idle_nil (s := s.setLatch b) hs hh]
      exact sameButLatch_next hk
    | cons w rest =>
      cases hd : decode w with
      | command i =>
        rw [sequencerTurn_idle hs hh hd, sequencerTurn_idle (s := s.setLatch b) hs hh hd]
        exact exec_sameButLatch i (s := { s with host := rest }) b hk
      | illegal reason =>
        rw [sequencerTurn_idle_illegal hs hh hd,
          sequencerTurn_idle_illegal (s := s.setLatch b) hs hh hd]
        exact sameButLatch_next (by simp [State.raise, State.microIndex])
  | busy w k =>
    cases hd : decode w with
    | command i =>
      rw [sequencerTurn_busy hs hd, sequencerTurn_busy (s := s.setLatch b) hs hd]
      exact exec_sameButLatch i b hk
    | illegal reason =>
      rw [sequencerTurn_busy_illegal hs hd, sequencerTurn_busy_illegal (s := s.setLatch b) hs hd]
      exact sameButLatch_next (by simp [State.raise, State.microIndex])

section
variable {s : State} {turns : List Turn}

theorem step_of_agenda_reset (h : s.agenda = .reset :: turns) :
    step s = .next (State.applyReset { s with agenda := turns }) := by simp [step, nextTurn, h]

theorem step_of_agenda_interfere {g : DevReg} {v : Byte} (h : s.agenda = .interfere g v :: turns) :
    step s = if s.insideRegisterRead then sequencerTurn s
      else .next (State.interfere { s with agenda := turns } g v) := by simp [step, nextTurn, h]
end

/-- A step from a state that has not passed a read frame leaves the latch dead (R28). -/
theorem step_sameButLatch {s : State} (b : Byte) (hk : s.microIndex < 2) :
    SameButLatch b (step s) (step (s.setLatch b)) := by
  cases ha : s.agenda with
  | nil =>
    rw [step_of_agenda_nil ha, step_of_agenda_nil (s := s.setLatch b) ha]
    exact sequencerTurn_sameButLatch b hk
  | cons turn turns =>
    cases turn with
    | radbf =>
      rw [step_of_agenda_radbf ha, step_of_agenda_radbf (s := s.setLatch b) ha]
      exact sequencerTurn_sameButLatch (s := { s with agenda := turns }) b hk
    | reset =>
      rw [step_of_agenda_reset ha, step_of_agenda_reset (s := s.setLatch b) ha]
      exact .inl rfl
    | interfere g v =>
      rw [step_of_agenda_interfere ha, step_of_agenda_interfere (s := s.setLatch b) ha,
        show (s.setLatch b).insideRegisterRead = s.insideRegisterRead from rfl]
      split
      · exact sequencerTurn_sameButLatch b hk
      · have hsame : State.interfere { s.setLatch b with agenda := turns } g v =
            (State.interfere { s with agenda := turns } g v).setLatch b :=
          State.setLatch_deviceSet (State.record { s with agenda := turns } (.interference g v)) b _ v
        rw [hsame]
        exact sameButLatch_next (by simpa [State.interfere, State.microIndex] using hk)

/-- Two runs from a state that has not passed a read frame, with different latches, end alike. -/
theorem run_setLatch (n : Nat) {s : State} (b : Byte) (hk : s.microIndex < 2) :
    mapNext State.forgetLatch (Host.Core.run core n (s.setLatch b)) =
      mapNext State.forgetLatch (Host.Core.run core n s) := by
  induction n generalizing s with
  | zero => rfl
  | succ n ih =>
    rcases step_sameButLatch b hk with heq | ⟨hmap, hdead⟩
    · rw [run_congr heq]
    · cases hx : step s with
      | next t =>
        rw [hx] at hmap
        rw [run_succ hx, run_succ hmap]
        exact ih (hdead t hx)
      | fault f => rw [run_congr (hmap.trans (by rw [hx]; rfl))]
      | refused f => rw [run_congr (hmap.trans (by rw [hx]; rfl))]

/-- Settles O51: in IDLE no read frame has been passed. -/
theorem latchIsDeadBetweenCommands : Obligations.LatchIsDeadBetweenCommands := by
  intro n s b hs
  exact run_setLatch n b (by simp [State.microIndex_idle hs])

end Sys2Proof.Machine

/-! PROOFS. The device register space (20_memory.md): the register map (R41, R42), the simulator and the
oracle (R48, R49), where a command stores (R143), and when the interference agent writes (R55). -/

namespace Sys2Proof.Machine

/-! ## The register map -/

/-- The 21 named registers, in the order of R40. -/
def devRegs : List DevReg :=
  [.IODIRA, .IODIRB, .IPOLA, .IPOLB, .GPINTENA, .GPINTENB, .DEFVALA, .DEFVALB, .INTCONA, .INTCONB,
    .IOCON, .GPPUA, .GPPUB, .INTFA, .INTFB, .INTCAPA, .INTCAPB, .GPIOA, .GPIOB, .OLATA, .OLATB]

theorem mem_devRegs (g : DevReg) : g ∈ devRegs := by
  cases g <;> decide

/-- R41: a register with a half is at `(t << 1) | half`. -/
theorem devRegOffset_of_half (g : DevReg) (hg : devRegType g ≠ 5#4) : ∃ h, devRegHalf g = some h ∧
    devRegOffset g = ((devRegType g).setWidth 8 <<< 1) ||| halfBit h ∧
    (devRegType g).setWidth 8 = devRegOffset g >>> 1 ∧ halfBit h = devRegOffset g &&& 1#8 := by
  cases g with
  | IOCON => exact absurd rfl hg
  | _ => exact ⟨_, rfl, by decide⟩

/-- R41: each paired type index has a register for either half. -/
theorem exists_devReg_of_paired {t : Nibble} (ht : paired t = true) (h : Half) :
    ∃ g, devRegType g = t ∧ devRegHalf g = some h ∧
      devRegOffset g = 2#8 * t.setWidth 8 + halfBit h := by
  have hall : ∀ t : Nibble, paired t = true → ∀ h ∈ [Half.A, .B], ∃ g ∈ devRegs,
      devRegType g = t ∧ devRegHalf g = some h ∧
        devRegOffset g = 2#8 * t.setWidth 8 + halfBit h := by decide
  obtain ⟨g, -, hg⟩ := hall t ht h (by cases h <;> decide)
  exact ⟨g, hg⟩

/-- R42: the defined offsets are those of the named registers. -/
theorem inDef_iff_devReg (b : Byte) : inDef b = true ↔ ∃ g, devRegOffset g = b := by
  constructor
  · intro hb
    have hall : ∀ b : Byte, inDef b = true → b ∈ devRegs.map devRegOffset := by decide
    obtain ⟨g, -, hg⟩ := List.mem_map.1 (hall b hb)
    exact ⟨g, hg⟩
  · rintro ⟨g, rfl⟩
    exact inDef_devRegOffset g

/-- No two registers share an offset (R40). -/
theorem devRegOffset_injective : Function.Injective devRegOffset := by
  have hnodup : (devRegs.map devRegOffset).Nodup := by decide
  intro g g' h
  exact List.inj_on_of_nodup_map hnodup (mem_devRegs g) (mem_devRegs g') h

/-- Settles O10, from the map's rows. -/
theorem registerMapIsPaired : Obligations.RegisterMapIsPaired := by
  refine ⟨devRegOffset_of_half, fun t ht h => ?_, fun g => ?_, fun g => ?_, inDef_iff_devReg,
    fun b => ?_, fun g g' h => devRegOffset_injective h⟩
  · exact exists_devReg_of_paired (List.contains_iff_mem.2 ht) h
  · cases g <;> decide
  · cases g <;> decide
  · simp [inDef, definedOffset, BitVec.le_def]

/-- Settles O36: the laws of `Memory.write`. -/
theorem registerSpaceWritesReadBack : Obligations.RegisterSpaceWritesReadBack := by
  intro m a b v hw ha
  exact ⟨Memory.write_keeps_wf ha hw, Memory.read_write_same a v hw, Memory.read_write_other a b v⟩

/-! ## What a write leaves in the register space -/

theorem State.deviceAfter_congr {s t : State} (hp : t.params = s.params) (hm : t.device = s.device)
    (r v : Byte) : t.deviceAfter r v = s.deviceAfter r v := by simp [deviceAfter, hp, hm]

section
variable {s : State} (r v : Byte)

/-- Either device model leaves every other register alone (R48, R49). -/
theorem State.read_deviceAfter_other {a : Nat} (ha : a ≠ r.toNat) :
    (s.deviceAfter r v).read a = s.device.read a := by
  cases hm : s.params.deviceModel with
  | oracle => rw [deviceAfter_oracle s r v hm]
  | memory => rw [deviceAfter_memory s r v hm, Memory.read_write_other _ _ _ ha]

/-- Under Memory the register reads as written (R49). -/
theorem State.read_deviceAfter_same (hm : s.params.deviceModel = .memory) (hw : s.device.wf = true) :
    (s.deviceAfter r v).read r.toNat = v := by
  rw [deviceAfter_memory s r v hm, Memory.read_write_same _ _ hw]

/-- Under Memory a read after a write, at any offset (R49). -/
theorem State.read_deviceAfter (hm : s.params.deviceModel = .memory) (hw : s.device.wf = true)
    (a : Nat) : (s.deviceAfter r v).read a = if a = r.toNat then v else s.device.read a := by
  split
  next ha => rw [ha, read_deviceAfter_same r v hm hw]
  next ha => exact read_deviceAfter_other r v ha

/-- Under Memory a byte read is the register's content, whatever byte was drawn (R49). -/
theorem State.readOutcome_memory (hm : s.params.deviceModel = .memory) (hr : s.nextReply ≠ .timeout) :
    s.readOutcome r = .byte (s.device.read r.toNat) := by
  unfold readOutcome
  split <;> simp_all

theorem State.readOutcome_oracle (hm : s.params.deviceModel = .oracle) :
    s.readOutcome r = s.nextReply := by
  unfold readOutcome
  split <;> simp_all
end

/-- What an interference write changes: the register space and the record (R55). -/
theorem State.interfere_eq (s : State) (g : DevReg) (v : Byte) : s.interfere g v = { s with
    device := s.deviceAfter (devRegOffset g) v
    trace := s.trace ++ [.interference g v] } := by
  cases hm : s.params.deviceModel <;> simp [interfere, deviceSet, deviceAfter, record, hm]

/-- Settles O34: what each frame and an interference write leave in `M`. -/
theorem memoryModelReadsLastWrite : Obligations.MemoryModelReadsLastWrite := by
  intro s r v g a hm hw
  refine ⟨fun h2 => ?_, fun h2 => ?_, State.addressFrame_device s r, fun b hb => ?_, ?_⟩
  · rw [State.valueFrame_device, if_pos h2, State.read_deviceAfter r v hm hw]
  · rw [State.valueFrame_device, if_neg (Nat.ne_of_lt h2)]
  · have hr : s.nextReply ≠ .timeout := fun ht => by simp [State.readOutcome, ht] at hb
    rw [State.readOutcome_memory r hm hr] at hb
    cases hb
    rfl
  · rw [State.interfere_eq]
    exact State.read_deviceAfter _ v hm hw a

/-! ## Where a command stores -/

/-- A register-write frame stores if both bytes were accepted; its response changes no register. -/
theorem microStep_w2_device (r v : Byte) (s : State) :
    (microStep (.w2 r v) s).device = if s.nextAccept 2 = 2 then s.deviceAfter r v else s.device := by
  rw [← State.valueFrame_device]
  simp only [microStep]
  split <;> simp [State.raise]

/-- A step of a command leaves the register space as it was, or stores the byte of its register-write
frame (R49, R143). -/
theorem exec_device {i : Instr} {s t : State} (h : exec i s = .next t) : t.device = s.device ∨
    ∃ r v, (microOps i s.latchN)[s.microIndex]? = some (.w2 r v) ∧ t.device = s.deviceAfter r v := by
  rcases exec_cases h with ⟨-, e, -, rfl⟩ | ⟨op, hop, -, -, rfl⟩
  · simp [State.raise]
  · by_cases hw : ∃ r v, op = .w2 r v
    · obtain ⟨r, v, rfl⟩ := hw
      rw [microStep_w2_device, State.begun_device]
      split
      · exact .inr ⟨r, v, hop, State.deviceAfter_congr (by simp) (by simp) r v⟩
      · exact .inl rfl
    · left
      simpa using microStep_device op (s.begun (encode i)) fun r v hop => hw ⟨r, v, hop⟩

/-- Settles O28: the step leaves the space alone, or stores at the index SEQ holds. -/
theorem deviceChangesOnlyAtTheStoredOffset : Obligations.DeviceChangesOnlyAtTheStoredOffset := by
  intro i s t hw h k hk
  have hidx : s.microIndex = k := by
    rcases hk with ⟨hs, rfl⟩ | ⟨w, hs⟩
    · exact State.microIndex_idle hs
    · exact State.microIndex_busy hs
  rcases exec_device h with heq | ⟨r, v, hop, heq⟩
  · rw [heq]
    exact ⟨fun r v _ => ⟨fun a _ => rfl, .inl rfl⟩, fun _ => rfl⟩
  · rw [hidx] at hop
    refine ⟨fun r' v' hop' => ?_, fun hno => absurd hop (hno r v)⟩
    cases hop.symm.trans hop'
    rw [heq]
    refine ⟨fun a ha => State.read_deviceAfter_other r v ha, ?_⟩
    cases hm : s.params.deviceModel with
    | oracle => exact .inl (by rw [State.deviceAfter_oracle s r v hm])
    | memory => exact .inr (State.read_deviceAfter_same r v hm hw)

/-- Settles O35: a drawn byte is passed on, and neither frames nor interference writes are kept. -/
theorem oracleReadsAreDraws : Obligations.OracleReadsAreDraws := by
  intro s hm
  refine ⟨fun r => State.readOutcome_oracle r hm, fun r b rest hq => ?_, fun i t h => ?_,
    fun g v => ?_⟩
  · rw [State.readOutcome_oracle r hm, State.nextReply, hq]
  · rcases exec_device h with heq | ⟨r, v, -, heq⟩
    · exact heq
    · rw [heq, State.deviceAfter_oracle s r v hm]
  · rw [State.interfere_eq]
    exact State.deviceAfter_oracle s _ v hm

/-! ## Interference and register reads -/

/-- Settles O42: the write waits exactly inside a register read. -/
theorem interferenceWaitsForARegisterRead : Obligations.InterferenceWaitsForARegisterRead := by
  intro s g v turns ha
  refine ⟨fun hout => ?_, fun w i hs hd hr => ?_⟩
  · have hin : ¬ s.insideRegisterRead = true := by
      rw [State.insideRegisterRead_iff]
      rintro ⟨w, i, hs, hd, hr⟩
      simp [hout w i hs hd] at hr
    rw [step_of_agenda_interfere ha, if_neg hin, State.interfere_eq]
    rfl
  · have hin : s.insideRegisterRead = true := (State.insideRegisterRead_iff s).2 ⟨w, i, hs, hd, hr⟩
    have hstep : step s = exec i s := by
      rw [step_of_agenda_interfere ha, if_pos hin, sequencerTurn_busy hs hd]
    exact ⟨hstep, fun t ht => (exec_others (hstep.symm.trans ht)).2.2⟩

/-- A step of a command that records a read frame first is the RD of a command that reads (R140). -/
theorem exec_readFrame {i : Instr} {s t : State} {a : BusAddress} {o : ReadOutcome} {tail : List Event}
    (h : exec i s = .next t) (ht : t.trace = s.trace ++ .readFrame a o :: tail) :
    a = s.addr ∧ readsRegister i = true ∧ ∃ w, s.seq = .busy w 1 := by
  rcases exec_cases h with ⟨-, e, -, rfl⟩ | ⟨op, hop, -, -, rfl⟩
  · simp [State.raise] at ht
  · rw [microStep_trace_eq, State.begun_trace, MicroOp.events] at ht
    obtain ⟨hev, -⟩ := List.cons.inj (List.append_cancel_left ht)
    cases op <;> cases hev
    case rd.refl r =>
      obtain ⟨hr, hk⟩ := rd_index hop
      exact ⟨State.begun_addr s _, hr, State.busy_of_microIndex hk⟩

/-- RADBF's turn that records a read frame first goes on with a command that reads, at its RD. -/
theorem sequencerTurn_readFrame {s t : State} {a : BusAddress} {o : ReadOutcome} {tail : List Event}
    (h : sequencerTurn s = .next t) (ht : t.trace = s.trace ++ .readFrame a o :: tail) :
    a = s.addr ∧ ∃ w i, s.seq = .busy w 1 ∧ decode w = .command i ∧ readsRegister i = true := by
  rcases sequencerTurn_cases h with ⟨-, -, rfl⟩ | ⟨w, rest, reason, -, -, -, rfl⟩ |
    ⟨w, rest, i, hs, -, -, hx⟩ | ⟨w, k, reason, -, -, rfl⟩ | ⟨w, k, i, hs, hd, hx⟩
  · simp at ht
  · simp [State.raise] at ht
  · obtain ⟨-, -, v, hv⟩ := exec_readFrame hx ht
    simp [hs] at hv
  · simp [State.raise] at ht
  · obtain ⟨ha, hr, v, hv⟩ := exec_readFrame hx ht
    cases hs.symm.trans hv
    exact ⟨ha, w, i, hs, hd, hr⟩

/-- Settles O49: no other agent's move records a frame, and where RADBF reads, the invariant has the
address frame. -/
theorem readFramesFollowTheirAddressFrame : Obligations.ReadFramesFollowTheirAddressFrame := by
  intro s t a o tail hinv h ht
  rcases step_cases h with ⟨rest, -, rfl⟩ | ⟨g, v, rest, -, -, rfl⟩ | ⟨rest, -, hx⟩
  · simp [State.applyReset] at ht
  · simp [State.interfere] at ht
  · obtain ⟨rfl, w, i, hs, hd, hr⟩ := sequencerTurn_readFrame (s := { s with agenda := rest }) hx ht
    exact hinv.readAddressed w i hs hd hr

end Sys2Proof.Machine

/-! PROOFS. The steps of a read-modify-write whose frames succeed (41_bitfield_rmw.md R130), whether the
agenda is empty or leaves RADBF its turns, and the race with an interference write (20_memory.md R56). -/

namespace Sys2Proof.Machine

/-! ## A step of a command whose frame succeeds -/

/-- A state begun with command `i` at micro-operation `k`: SEQ is BUSY there and no response pends. -/
def State.busyAt (s : State) (i : Instr) (k : Nat) : State :=
  { s with seq := .busy (encode i) k, response := none }

/-- The next step of command `i` from `s` is its micro-operation `k`. -/
structure AtMicroOp (i : Instr) (k : Nat) (s : State) : Prop where
  index : s.microIndex = k
  begun : s.begun (encode i) = s.busyAt i k

theorem atMicroOp_idle {i : Instr} {s : State} (hs : s.seq = .idle) : AtMicroOp i 0 s :=
  ⟨State.microIndex_idle hs, State.begun_idle hs _⟩

theorem atMicroOp_busy {i : Instr} {s : State} {k : Nat} (hs : s.seq = .busy (encode i) k)
    (hr : s.response = none) : AtMicroOp i k s := by
  refine ⟨State.microIndex_busy hs, ?_⟩
  rw [State.begun_busy hs, State.busyAt, ← hs, ← hr]

section
variable (s : State) (i : Instr) (k : Nat)

theorem State.busyAt_takeAccept : (s.busyAt i k).takeAccept = s.takeAccept.busyAt i k := by
  cases hs : s.acks <;> simp [takeAccept, busyAt, hs]

theorem State.busyAt_takeReply : (s.busyAt i k).takeReply = s.takeReply.busyAt i k := by
  cases hs : s.replies <;> simp [takeReply, busyAt, hs]
end

section
variable {i : Instr} {s : State} {k : Nat} {r v : Byte} (h : AtMicroOp i k s)
  (he : firstError i s = none)
include h he

/-- A step of a command whose checks pass is its micro-operation. -/
theorem exec_atMicroOp {op : MicroOp} (hop : (microOps i s.latchN)[k]? = some op) :
    exec i s = .next (microStep op (s.busyAt i k)) := by
  rw [← h.begun]
  refine exec_micro (fun _ => he) (h.index ▸ hop) ?_
  rw [← frameFault_of_checked he (List.mem_of_getElem? hop)]
  simp [frameFault]

/-- An address frame accepted: the command goes on to its read frame (R140). -/
theorem exec_address (hop : (microOps i s.latchN)[k]? = some (.w1 r)) (ha : s.nextAccept 1 = 1) :
    exec i s = .next (s.afterAddress i r) := by
  obtain rfl := w1_index hop
  have hacc : (s.busyAt i 0).nextAccept 1 = 1 := ha
  rw [exec_atMicroOp h he hop, microStep, hacc, if_neg (lt_irrefl 1), State.addressFrame, hacc,
    State.busyAt_takeAccept]
  simp [State.afterAddress, State.busyAt, State.record, State.advance, State.addr]

/-- A read frame answered with a byte: the latch holds it (R140). -/
theorem exec_read {b : Byte} (hop : (microOps i s.latchN)[k]? = some (.rd r))
    (hb : s.readOutcome r = .byte b) :
    exec i s = .next { s.takeReply with
      seq := .busy (encode i) (k + 1)
      response := none
      latchN := b
      trace := s.trace ++ [.readFrame s.addr (.byte b)] } := by
  have hout : (s.busyAt i k).readOutcome r = .byte b := hb
  rw [exec_atMicroOp h he hop, microStep, hout, State.readFrame, hout, State.busyAt_takeReply]
  simp [State.busyAt, State.record, State.advance, State.addr]

/-- A register-write frame accepted whole (R143). -/
theorem exec_write (hop : (microOps i s.latchN)[k]? = some (.w2 r v)) (ha : s.nextAccept 2 = 2) :
    exec i s = .next (s.afterWrite i r v (k + 1)) := by
  have hacc : (s.busyAt i k).nextAccept 2 = 2 := ha
  rw [exec_atMicroOp h he hop, microStep, hacc, if_neg (lt_irrefl 2), State.valueFrame, hacc,
    State.busyAt_takeAccept]
  cases hm : s.params.deviceModel <;>
    simp [State.afterWrite, State.deviceAfter, State.deviceSet, State.busyAt, State.record,
      State.advance, State.addr, hm]

/-- FIN responds (R27). -/
theorem exec_fin (hop : (microOps i s.latchN)[k]? = some (.fin v)) :
    exec i s = .next (s.answered .OK v) := by
  rw [exec_atMicroOp h he hop]
  rfl
end

section
variable (s : State) (i : Instr) (r v b : Byte) (k : Nat)

theorem State.afterAddress_takeReply : { (s.afterAddress i r).takeReply with
    seq := .busy (encode i) 2
    response := none
    latchN := b
    trace := (s.afterAddress i r).trace ++ [.readFrame (s.afterAddress i r).addr (.byte b)] } =
      s.afterByte i r b := by
  cases hs : s.replies <;> simp [afterByte, afterAddress, takeReply, addr, hs]

@[simp] theorem firstError_afterAddress : firstError i (s.afterAddress i r) = firstError i s :=
  firstError_congr i s _ (by simp [State.afterAddress]) (by simp [State.afterAddress, State.valid])

@[simp] theorem firstError_afterByte : firstError i (s.afterByte i r b) = firstError i s :=
  firstError_congr i s _ (by simp [State.afterByte]) (by simp [State.afterByte, State.valid])

@[simp] theorem firstError_afterWrite : firstError i (s.afterWrite i r v k) = firstError i s :=
  firstError_congr i s _ (by simp [State.afterWrite]) (by simp [State.afterWrite, State.valid])
end

section
variable {i : Instr} {s : State} {r v x b : Byte} {k : Nat} (he : firstError i s = none)
include he

/-- The read frame that follows an accepted address frame, answered with a byte (R140). -/
theorem exec_afterAddress (hop : (microOps i s.latchN)[1]? = some (.rd r))
    (hb : s.readOutcome r = .byte b) : exec i (s.afterAddress i r) = .next (s.afterByte i r b) := by
  have hlatch : (s.afterAddress i r).latchN = s.latchN := s.takeAccept_latchN
  have hout : (s.afterAddress i r).readOutcome r = .byte b := by
    rw [← hb]
    exact (State.readOutcome_congr s.takeAccept _ r rfl rfl rfl rfl).trans
      (s.takeAccept_readOutcome r)
  rw [exec_read (atMicroOp_busy rfl rfl) (by simpa using he) (by rwa [hlatch]) hout,
    State.afterAddress_takeReply]

/-- The FIN that follows an accepted register-write frame (R27, R143). -/
theorem exec_afterWrite (hop : (microOps i s.latchN)[k]? = some (.fin x)) :
    exec i (s.afterWrite i r v k) = .next ((s.afterWrite i r v k).answered .OK x) := by
  have hlatch : (s.afterWrite i r v k).latchN = s.latchN := s.takeAccept_latchN
  exact exec_fin (atMicroOp_busy rfl rfl) (by simpa using he) (by rwa [hlatch])
end

/-! ## Runs of RADBF's turns -/

/-- The agenda leaves the next move to RADBF, with `later` as the agenda after it. -/
def LeavesTurn (turns later : List Turn) : Prop :=
  (turns = [] ∧ later = []) ∨ turns = .radbf :: later

section
variable {i : Instr} {s : State} {later : List Turn} (h : LeavesTurn s.agenda later)
include h

theorem step_of_leavesTurn : step s = sequencerTurn { s with agenda := later } :=
  step_radbf (h.imp_right .inl)

/-- RADBF's turn in IDLE is the first step of the command presented (R26). -/
theorem step_presented {rest : List Word} (hs : s.seq = .idle) (hh : s.host = encode i :: rest) :
    step s = exec i { s with host := rest, agenda := later } := by
  rw [step_of_leavesTurn h]
  exact sequencerTurn_idle (s := { s with agenda := later }) hs hh (decode_encode i)

/-- RADBF's turn in BUSY is the next step of the command in progress (R25). -/
theorem step_inProgress {k : Nat} (hs : s.seq = .busy (encode i) k) :
    step s = exec i { s with agenda := later } := by
  rw [step_of_leavesTurn h]
  exact sequencerTurn_busy (s := { s with agenda := later }) hs (decode_encode i)
end

section
variable (s : State) (i : Instr) (r : Byte) (turns : List Turn)

theorem State.takeAccept_with_agenda :
    State.takeAccept { s with agenda := turns } = { s.takeAccept with agenda := turns } := by
  cases hs : s.acks <;> simp [takeAccept, hs]

theorem State.afterAddress_with_agenda : State.afterAddress { s with agenda := turns } i r =
    { s.afterAddress i r with agenda := turns } := by
  simp [afterAddress, takeAccept_with_agenda, addr]

theorem State.afterWrite_with_agenda (v : Byte) (k : Nat) :
    State.afterWrite { s with agenda := turns } i r v k =
      { s.afterWrite i r v k with agenda := turns } := by
  simp [afterWrite, takeAccept_with_agenda, deviceAfter, addr]
end

section
variable {i : Instr} {s : State} {r v x b : Byte} {k : Nat} {later last : List Turn}

/-- Two turns of RADBF read a register for the command presented, its frames successful (R140). -/
theorem run_register_read {rest : List Word} (hop1 : (microOps i s.latchN)[0]? = some (.w1 r))
    (hop2 : (microOps i s.latchN)[1]? = some (.rd r)) (he : firstError i s = none)
    (hs : s.seq = .idle) (hh : s.host = encode i :: rest) (hl : LeavesTurn s.agenda later)
    (hl' : LeavesTurn later last) (ha : s.nextAccept 1 = 1) (hb : s.readOutcome r = .byte b) :
    Host.Core.run core 2 s =
      .next (State.afterByte { s with host := rest, agenda := last } i r b) := by
  have hfirst : step s = .next (State.afterAddress { s with host := rest, agenda := later } i r) := by
    rw [step_presented hl hs hh]
    exact exec_address (atMicroOp_idle hs) he hop1 ha
  have hsecond : step (State.afterAddress { s with host := rest, agenda := later } i r) =
      .next (State.afterByte { s with host := rest, agenda := last } i r b) := by
    rw [step_inProgress (by simpa [State.afterAddress] using hl') rfl,
      ← State.afterAddress_with_agenda]
    exact exec_afterAddress he hop2 hb
  exact (run_succ hfirst 1).trans (run_succ hsecond 0)

/-- Two turns of RADBF write a register for the command in progress and answer, the frame successful
(R143). -/
theorem run_register_write (hop1 : (microOps i s.latchN)[k]? = some (.w2 r v))
    (hop2 : (microOps i s.latchN)[k + 1]? = some (.fin x)) (he : firstError i s = none)
    (hs : s.seq = .busy (encode i) k) (hr : s.response = none) (hl : LeavesTurn s.agenda later)
    (hl' : LeavesTurn later last) (ha : s.nextAccept 2 = 2) :
    Host.Core.run core 2 s =
      .next ((State.afterWrite { s with agenda := last } i r v (k + 1)).answered .OK x) := by
  have hfirst : step s = .next (State.afterWrite { s with agenda := later } i r v (k + 1)) := by
    rw [step_inProgress hl hs]
    exact exec_write (atMicroOp_busy hs hr) he hop1 ha
  have hsecond : step (State.afterWrite { s with agenda := later } i r v (k + 1)) =
      .next ((State.afterWrite { s with agenda := last } i r v (k + 1)).answered .OK x) := by
    rw [step_inProgress (by simpa [State.afterWrite] using hl') rfl, ← State.afterWrite_with_agenda]
    exact exec_afterWrite he hop2
  exact (run_succ hfirst 1).trans (run_succ hsecond 0)
end

/-! ## The race -/

/-- R130, R160: the four micro-operations of a read-modify-write. -/
theorem microOps_of_rmwTarget {i : Instr} {r mask value : Byte}
    (h : rmwTarget i = some (r, mask, value)) (n : Byte) :
    microOps i n = [.w1 r, .rd r, .w2 r (insertBits n mask value), .fin 0x00#8] := by
  cases i <;> cases h <;> rfl

/-- The state after a register read of byte `b` and then an interference write of `w` (R55, R56). -/
def State.raced (s : State) (i : Instr) (r b : Byte) (g : DevReg) (w : Byte) (turns : List Turn) :
    State :=
  { s.afterByte i r b with
    agenda := turns
    device := s.deviceAfter (devRegOffset g) w
    trace := (s.afterByte i r b).trace ++ [.interference g w] }

section
variable {s : State} {i : Instr} {r b w : Byte} {g : DevReg} {turns : List Turn}

theorem firstError_raced : firstError i (s.raced i r b g w turns) = firstError i s :=
  firstError_afterByte s i r b

theorem State.raced_params : (s.raced i r b g w turns).params = s.params := by
  simp [raced, afterByte]

theorem State.raced_nextAccept (len : Nat) :
    (s.raced i r b g w turns).nextAccept len = s.takeAccept.nextAccept len :=
  s.takeAccept.takeReply_nextAccept len

/-- After the read frame the agent's write does not wait (R55). -/
theorem step_interfere_afterByte (ha : s.agenda = .interfere g w :: turns) :
    step (s.afterByte i r b) = .next (s.raced i r b g w turns) := by
  have hdev : (s.afterByte i r b).deviceAfter (devRegOffset g) w =
      s.deviceAfter (devRegOffset g) w :=
    State.deviceAfter_congr (by simp [State.afterByte]) (by simp [State.afterByte]) _ w
  have hout : ∀ v j, (s.afterByte i r b).seq = .busy v 1 → decode v = .command j →
      readsRegister j = false := fun v j hv => by simp [State.afterByte] at hv
  rw [(interferenceWaitsForARegisterRead _ g w turns (by simpa [State.afterByte] using ha)).1 hout,
    hdev]
  rfl

/-- The write of a read-modify-write, after the agent's write. -/
theorem run_write_raced {mask value : Byte} (ht : rmwTarget i = some (r, mask, value))
    (he : firstError i s = none) (hacc : s.takeAccept.nextAccept 2 = 2) :
    Host.Core.run core 2 (s.raced i r b g w (.radbf :: .radbf :: turns)) =
      .next ((State.afterWrite (s.raced i r b g w turns) i r (insertBits b mask value) 3).answered
        .OK 0x00#8) := by
  have hops := microOps_of_rmwTarget ht b
  refine run_register_write ?_ ?_ (firstError_raced.trans he) rfl rfl (.inr rfl) (.inr rfl)
    ((State.raced_nextAccept 2).trans hacc)
  · exact congrArg (·[2]?) hops
  · exact congrArg (·[3]?) hops

/-- A read-modify-write with an interference write between its read and its write, every frame
successful: the composed byte goes on top of what the agent left (R56). -/
theorem run_race {mask value : Byte} {rest : List Word} (ht : rmwTarget i = some (r, mask, value))
    (he : firstError i s = none) (hs : s.seq = .idle) (hh : s.host = encode i :: rest)
    (ha : s.agenda = .radbf :: .radbf :: .interfere g w :: .radbf :: .radbf :: turns)
    (hacc1 : s.nextAccept 1 = 1) (hacc2 : s.takeAccept.nextAccept 2 = 2)
    (hb : s.readOutcome r = .byte b) :
    ∃ u, Host.Core.run core 5 s =
        .next ((State.afterWrite u i r (insertBits b mask value) 3).answered .OK 0x00#8) ∧
      u.params = s.params ∧ u.device = s.deviceAfter (devRegOffset g) w := by
  have hops := microOps_of_rmwTarget ht s.latchN
  have hread := run_register_read (by rw [hops]; rfl) (by rw [hops]; rfl) he hs hh (.inr ha)
    (.inr rfl) hacc1 hb
  have hrace := step_interfere_afterByte (i := i) (r := r) (b := b)
    (s := { s with host := rest, agenda := .interfere g w :: .radbf :: .radbf :: turns }) rfl
  refine ⟨_, (run_add (m := 3) hread).trans ((run_succ hrace 2).trans (run_write_raced ht he ?_)),
    State.raced_params, rfl⟩
  exact (State.nextAccept_congr s.takeAccept _ (by simp) (by simp) 2).trans hacc2
end

/-- Settles O55: the interference write stands between two turns that read the register and two that
write it, so the byte composed from the old content goes on top of it. -/
theorem raceLosesTheInterferingWrite : Obligations.RaceLosesTheInterferingWrite := by
  intro s i r mask value w g turns rest ht he hs hm hw ha hh hacc1 hacc2 hreply
  obtain ⟨u, hrun, hparams, hdev⟩ :=
    run_race ht he hs hh ha hacc1 hacc2 (State.readOutcome_memory r hm hreply)
  have hmu : u.params.deviceModel = .memory := by rw [hparams, hm]
  have hwu : u.device.wf = true := by
    rw [hdev]
    exact State.deviceAfter_wf w hw (inDef_devRegOffset g)
  have hread : ∀ v a, (u.deviceAfter r v).read a = if a = r.toNat then v else
      if a = (devRegOffset g).toNat then w else s.device.read a := by
    intro v a
    rw [State.read_deviceAfter r v hmu hwu, hdev, State.read_deviceAfter _ w hm hw]
  refine ⟨_, hrun, rfl, ?_, fun hne => ?_, fun a har hag => ?_⟩
  · exact (hread _ _).trans (if_pos rfl)
  · refine (hread _ _).trans ?_
    rw [if_neg (fun h => hne (BitVec.eq_of_toNat_eq h)), if_pos rfl]
  · exact (hread _ _).trans (by rw [if_neg har, if_neg hag])

end Sys2Proof.Machine

/-! PROOFS. The command word (30_encoding.md): the rows of the table exclude each other (R73), the decoder
and the encoder are inverse to each other (R71 to R74), the illegal words (R74) and their answer (R75). -/

namespace Sys2Proof.Machine

/-! ## The rows of the table -/

theorem hits_iff_match {r : Row} {w : Word} : r.hits w = true ↔ w &&& r.mask = r.pattern :=
  beq_iff_eq

/-- Two rows of the table whose patterns agree on every bit that both rows fix are the same row. -/
theorem row_eq_of_patterns_agree : ∀ r ∈ opcodeTable, ∀ r' ∈ opcodeTable,
    r.pattern &&& r'.mask = r'.pattern &&& r.mask → r = r' := by decide

/-- Settles O4: on the bits that both rows fix, both patterns are the word's, so they agree there. -/
theorem noWordMatchesTwoRows : Obligations.NoWordMatchesTwoRows := by
  intro w r hr r' hr' h h'
  refine row_eq_of_patterns_agree r hr r' hr' ?_
  rw [← h, ← h', BitVec.and_assoc, BitVec.and_assoc, BitVec.and_comm r.mask]

/-! ## The fields of a word -/

/-- A word is packed from five fields iff it has them (R71). -/
theorem pack_eq_iff {w : Word} {o c : Nibble} {a b d : Byte} : pack o c a b d = w ↔
    opcOf w = o ∧ catOf w = c ∧ aOf w = a ∧ bOf w = b ∧ cOf w = d := by
  constructor
  · rintro rfl
    simp
  · rintro ⟨rfl, rfl, rfl, rfl, rfl⟩
    exact pack_fields w

/-- Settles O5: `pack` is the rule's formula, and a packed word has the fields it was packed from. -/
theorem fieldsCoverTheCommandWord : Obligations.FieldsCoverTheCommandWord := by
  refine ⟨fun o c a b d w hw => ?_, pack_fields⟩
  obtain ⟨ho, hc, ha, hb, hd⟩ := pack_eq_iff.mp (show pack o c a b d = w from hw.symm)
  exact ⟨ho, hc, ha, hb, hd, ho, hc, ha, hb, hd⟩

/-! ## What the decoder answers -/

/-- A word of a row decodes to the row's command: no other row is found before it (R73, R74). -/
theorem decode_of_hits {r : Row} {w : Word} (hr : r ∈ opcodeTable) (h : r.hits w = true) :
    decode w = .command (commandOf r.mnemonic w) := by
  cases hfound : opcodeTable.find? (fun r => r.hits w) with
  | none => exact absurd h (List.find?_eq_none.mp hfound r hr)
  | some found =>
    have hhit : found.hits w = true := List.find?_some (p := fun r : Row => r.hits w) hfound
    have hsame : found = r := noWordMatchesTwoRows w found (List.mem_of_find?_eq_some hfound) r hr
      (hits_iff_match.mp hhit) (hits_iff_match.mp h)
    rw [decode, hfound, hsame]

/-- A word of no row is illegal (R74). -/
theorem decode_of_no_hit {w : Word} (h : ∀ r ∈ opcodeTable, r.hits w ≠ true) :
    decode w = .illegal (illegalReason w) := by
  rw [decode, List.find?_eq_none.mpr h]

/-- A decoded command is the command of a row that the word matches. -/
theorem exists_hit_of_decode {w : Word} {i : Instr} (h : decode w = .command i) :
    ∃ r ∈ opcodeTable, r.hits w = true ∧ i = commandOf r.mnemonic w := by
  by_cases hrow : ∃ r ∈ opcodeTable, r.hits w = true
  · obtain ⟨r, hr, hhit⟩ := hrow
    exact ⟨r, hr, hhit, Decoded.command.inj (h.symm.trans (decode_of_hits hr hhit))⟩
  · rw [decode_of_no_hit fun r hr hhit => hrow ⟨r, hr, hhit⟩] at h
    cases h

/-- The illegal words are the words of no row (R74). -/
theorem decode_illegal_iff {w : Word} :
    (∃ reason, decode w = .illegal reason) ↔ ∀ r ∈ opcodeTable, r.hits w ≠ true := by
  constructor
  · rintro ⟨reason, h⟩ r hr hhit
    cases h.symm.trans (decode_of_hits hr hhit)
  · exact fun h => ⟨_, decode_of_no_hit h⟩

/-! ## The decoder and the encoder are inverse -/

/-- Settles O1: the round trip of every command. -/
theorem decodeOfEncodeIsTheCommand : Obligations.DecodeOfEncodeIsTheCommand := decode_encode

/-- Encoding the command that a row reads from its word gives the word back: a field that is no operand
of the command is one the row fixes. -/
theorem encode_commandOf (w : Word) :
    ∀ r ∈ opcodeTable, r.hits w = true → encode (commandOf r.mnemonic w) = w := by
  simp +contextual [opcodeTable, commandOf, encode, pack_eq_iff, hits_BEGIN, hits_RESOLVE,
    hits_BITMASK, hits_INSERT, hits_EXTRACT, hits_READ_REG, hits_WRITE_REG, hits_SET_BITS,
    hits_PIN_MODE, hits_PORT_MODE, hits_DIGITAL_WRITE, hits_DIGITAL_READ, hits_PORT_WRITE,
    hits_PORT_READ, hits_SET_POLARITY, hits_SET_INTERRUPT, hits_SET_PULLUP]

/-- Settles O2: the command is that of a row the word matches, and encoding it gives the word. -/
theorem encodeOfDecodeIsTheWord : Obligations.EncodeOfDecodeIsTheWord := by
  intro w i h
  obtain ⟨r, hr, hhit, rfl⟩ := exists_hit_of_decode h
  exact encode_commandOf w r hr hhit

/-- Settles O6, by running the decoder. -/
theorem exampleWordsDecode : Obligations.ExampleWordsDecode := by
  unfold Obligations.ExampleWordsDecode
  decide

/-- Settles O7, by running the assembler and the encoder. -/
theorem assemblerExamplesAssemble : Obligations.AssemblerExamplesAssemble := by
  unfold Obligations.AssemblerExamplesAssemble
  decide

/-! ## The illegal words -/

/-- The sixteen values of a 4-bit field. -/
theorem mem_nibbles : ∀ o : Nibble, o ∈ (List.range 16).map (BitVec.ofNat 4) := by decide

/-- Settles O3. The first two clauses are what the decoder answers; for the third, each value of OPC leaves
the rows of that OPC, and the word matches none of them iff in each a field that the row fixes differs. -/
theorem wordsMatchingNoRowAreIllegal : Obligations.WordsMatchingNoRowAreIllegal := by
  intro w
  refine ⟨fun r hr h => decode_of_hits hr (hits_iff_match.mpr h), ?_, decode_illegal_iff.trans ?_⟩
  · simp only [decode_illegal_iff, hits_iff_match, ne_eq]
  · simp only [opcodeTable, List.forall_mem_cons, hits_BEGIN, hits_RESOLVE, hits_BITMASK,
      hits_INSERT, hits_EXTRACT, hits_READ_REG, hits_WRITE_REG, hits_SET_BITS, hits_PIN_MODE,
      hits_PORT_MODE, hits_DIGITAL_WRITE, hits_DIGITAL_READ, hits_PORT_WRITE, hits_PORT_READ,
      hits_SET_POLARITY, hits_SET_INTERRUPT, hits_SET_PULLUP]
    have hopc := mem_nibbles (opcOf w)
    generalize opcOf w = opc at hopc ⊢
    fin_cases hopc <;> simp [imp_iff_not_or]
    -- OPC = 0xF alone is left: three rows, told apart by CAT.
    tauto

/-- Settles O31: RADBF's turn takes the word and raises IllegalCommand. -/
theorem illegalWordsAnswerIllegalCommand : Obligations.IllegalWordsAnswerIllegalCommand := by
  intro s w rest reason hs hh hd
  refine ⟨fun ha => ?_, fun turns ha => ?_⟩
  · rw [step_of_agenda_nil ha, sequencerTurn_idle_illegal hs hh hd]
    rfl
  · rw [step_of_agenda_radbf ha]
    exact sequencerTurn_idle_illegal hs hh hd

end Sys2Proof.Machine

/-! PROOFS. The resolver (40_resolver.md): the half and the mask of a pin (R100 to R102, R108), the ports
(R104, R105), and the commands that answer from a pin operand alone (R110, R111). -/

namespace Sys2Proof.Machine

/-! ## The half and the mask of a pin -/

/-- R107. -/
theorem paired_iff (t : Nibble) :
    paired t = true ↔ t ∈ [0#4, 1#4, 2#4, 3#4, 4#4, 6#4, 7#4, 8#4, 9#4, 10#4] :=
  List.contains_iff_mem

theorem half_of_lt {p : Byte} (h : p < 8#8) : half p = .A := if_pos h

theorem half_of_ge {p : Byte} (h : 8#8 ≤ p) : half p = .B := if_neg (BitVec.not_lt.mpr h)

theorem halfBit_half (p : Byte) : halfBit (half p) = if p < 8#8 then 0#8 else 1#8 := by
  by_cases h : p < 8#8
  · rw [half_of_lt h, if_pos h, halfBit]
  · rw [half_of_ge (BitVec.not_lt.mp h), if_neg h, halfBit]

/-- R41, R102: the half of a resolved offset is its lowest bit, so joining it is adding it. -/
theorem resolvePin_eq_add (p : Byte) (t : Nibble) :
    resolvePin p t = 2#8 * t.setWidth 8 + halfBit (half p) := by
  unfold resolvePin
  revert t
  cases half p <;> decide

theorem bitMask_eq_twoPow (p : Byte) : bitMask p = BitVec.twoPow 8 (bitpos p) := rfl

theorem bitpos_lt_eight (p : Byte) : bitpos p < 8 := Nat.mod_lt _ (by decide)

/-- Bit k of a pin's mask is set iff k is the pin's bit position (R101). -/
theorem getLsbD_bitMask (p : Byte) (k : Nat) : (bitMask p).getLsbD k = true ↔ k = bitpos p := by
  simp [bitMask_eq_twoPow, bitpos_lt_eight, eq_comm]

/-- Pins of the two halves at the same position share it: 8 divides the modulus of a byte (R101). -/
theorem bitpos_add_eight (p : Byte) : bitpos (p + 8#8) = bitpos p := by
  simp only [bitpos, BitVec.toNat_add, BitVec.toNat_ofNat]
  omega

/-- Settles O8: the half decides the offset, and the position the mask. -/
theorem pinsResolveToTheirHalf : Obligations.PinsResolveToTheirHalf := by
  refine ⟨fun t ht p => ⟨fun hp => ?_, fun hp _ => ?_, ?_⟩, fun p _ => ?_⟩
  · have hlt : p < 8#8 := by bv_omega
    rw [resolvePin_eq_add, half_of_lt hlt, halfBit, BitVec.add_zero]
  · rw [resolvePin_eq_add, half_of_ge hp, halfBit]
  · exact inDef_resolvePin p ((paired_iff t).mpr ht)
  · rw [bitMask, bitMask, bitpos_add_eight]

/-- Settles O9. -/
theorem maskOfPinIsItsBit : Obligations.MaskOfPinIsItsBit :=
  fun p k _ => getLsbD_bitMask p k

/-! ## The ports -/

theorem validPort_iff (q : Byte) : validPort q = true ↔ q = 0x12#8 ∨ q = 0x13#8 := by
  simp [validPort, portA, portB]

/-- Settles O11: the check is the test of a valid port, and the rest is about the two ports. -/
theorem portsResolveToTheirRegisters : Obligations.PortsResolveToTheirRegisters := by
  refine ⟨validPort_iff, fun q => ?_, by decide⟩
  simp only [checkPort, validPort_iff]

/-! ## The commands that answer from a pin operand alone -/

theorem validPin_eq_false_iff (p : Byte) : validPin p = false ↔ p > 15#8 :=
  decide_eq_false_iff_not.trans BitVec.not_le

/-- A command presented in IDLE whose checks fail is answered with the error in that step (R200,
R206). -/
theorem exec_idle_error {i : Instr} {s : State} {e : Status} (hs : s.seq = .idle)
    (he : firstError i s = some e) : exec i s = .next (s.answered e 0x00#8) := by
  rw [exec_error (State.microIndex_idle hs) he, State.begun_idle hs, State.raise_accept]
  rfl

/-- The operand's register is checked first (R206). -/
theorem firstError_of_badRegisterOperand {i : Instr} (s : State) (hb : badRegisterOperand i = true) :
    firstError i s = some .InvalidRegister := if_pos hb

/-- The checks of a command that issues no frame and names no bad register are its pin's (R106). -/
theorem firstError_of_pinOperand {i : Instr} {p : Byte} (s : State) (hb : badRegisterOperand i = false)
    (hp : pinOperand i = some p) (hf : issuesFrames i = false) :
    firstError i s = if s.params.pinCheck = true ∧ p > 15#8 then some .InvalidPin else none := by
  simp [firstError, hb, hp, hf, validPin_eq_false_iff]

/-- A command of FIN alone, presented in IDLE with a pin as the one operand to check (R106), answers in
that step: the pin's error, or FIN's result. -/
theorem exec_idle_fin_of_pinOperand {i : Instr} {s : State} {p v : Byte} (hs : s.seq = .idle)
    (hb : badRegisterOperand i = false) (hp : pinOperand i = some p) (hf : issuesFrames i = false)
    (hops : microOps i s.latchN = [.fin v]) :
    exec i s = .next (if s.params.pinCheck = true ∧ p > 15#8 then s.answered .InvalidPin 0x00#8
      else s.answered .OK v) := by
  have herr := firstError_of_pinOperand s hb hp hf
  by_cases hbad : s.params.pinCheck = true ∧ p > 15#8
  · rw [if_pos hbad] at herr ⊢
    exact exec_idle_error hs herr
  · rw [if_neg hbad] at herr ⊢
    exact exec_fin (atMicroOp_idle hs) herr (by rw [hops, List.getElem?_cons_zero])

/-- Settles O15: the category is checked first, and a paired one leaves the pin's check and FIN. -/
theorem resolveAnswersTheOffset : Obligations.ResolveAnswersTheOffset := by
  refine ⟨fun t p => decode_encode (.resolve t p), fun t p s hs => ?_⟩
  by_cases ht : paired t = true
  · rw [if_neg (not_not.mpr ((paired_iff t).mp ht)), ← halfBit_half]
    exact exec_idle_fin_of_pinOperand hs (by simp [badRegisterOperand, ht]) rfl rfl rfl
  · rw [if_pos (mt (paired_iff t).mpr ht)]
    exact exec_idle_error hs (firstError_of_badRegisterOperand s (by simp [badRegisterOperand, ht]))

/-- Settles O16: the pin's check and FIN. -/
theorem bitmaskAnswersTheMask : Obligations.BitmaskAnswersTheMask :=
  ⟨fun p => decode_encode (.bitmask p),
    fun _ _ hs => exec_idle_fin_of_pinOperand hs rfl rfl rfl rfl⟩

end Sys2Proof.Machine

/-! PROOFS. The bit-field functions and their commands (41_bitfield_rmw.md): the inserter and the extractor
(R120 to R122), INSERT and EXTRACT (R125, R126), the frames of a read-modify-write with each transport
failure (R130, R140 to R143), and what it leaves in the register space (R130). -/

namespace Sys2Proof.Machine

/-! ## The inserter and the extractor -/

/-- R120, bit by bit: the mask chooses between the value and the old byte. -/
theorem getElem_insertBits (n mask value : Byte) {k : Nat} (hk : k < 8) :
    (insertBits n mask value)[k] = if mask[k] then value[k] else n[k] := by
  cases hm : mask[k] <;> simp [insertBits, hm]

theorem bitMask_ne_zero (p : Byte) : bitMask p ≠ 0#8 := fun h => by
  simpa [h] using (getLsbD_bitMask p (bitpos p)).mpr rfl

/-- R121: masking with a single bit leaves it or nothing. -/
theorem extractBit_eq_getLsbD (n p : Byte) : extractBit n p = n.getLsbD (bitpos p) := by
  rw [extractBit, bitMask_eq_twoPow, BitVec.and_twoPow, ← bitMask_eq_twoPow]
  split
  next hbit => rw [hbit, bne_iff_ne]; exact bitMask_ne_zero p
  next hbit => simpa using hbit

/-- Settles O13. -/
theorem extractorReturnsTheBit : Obligations.ExtractorReturnsTheBit := extractBit_eq_getLsbD

/-- A bit of a byte with one pin's bit inserted (R120, R121). -/
theorem extractBit_insertBits_bitMask (n value p q : Byte) :
    extractBit (insertBits n (bitMask p) value) q =
      if bitpos q = bitpos p then value.getLsbD (bitpos q) else n.getLsbD (bitpos q) := by
  have hq : bitpos q < 8 := bitpos_lt_eight q
  simp only [extractBit_eq_getLsbD, BitVec.getLsbD_eq_getElem hq, getElem_insertBits]
  simp only [← BitVec.getLsbD_eq_getElem hq, getLsbD_bitMask]

section
variable (n mask value : Byte)

/-- Law (a) of R122. -/
theorem insertBits_and_not_mask : insertBits n mask value &&& ~~~mask = n &&& ~~~mask := by
  ext k hk
  cases hm : mask[k] <;> simp [getElem_insertBits, hm]

/-- Law (b) of R122. -/
theorem insertBits_and_mask : insertBits n mask value &&& mask = value &&& mask := by
  ext k hk
  cases hm : mask[k] <;> simp [getElem_insertBits, hm]

/-- Law (d) of R122: the first insert is wholly overwritten. -/
theorem insertBits_insertBits (w : Byte) :
    insertBits (insertBits n mask value) mask w = insertBits n mask w := by
  rw [insertBits, insertBits_and_not_mask, ← insertBits]

/-- Law (e) of R122: every bit comes from the one byte. -/
theorem insertBits_self : insertBits n mask n = n := by
  ext k hk
  simp [getElem_insertBits]
end

/-- Settles O12: the laws of the inserter, and for the extractor the bit the mask of a pin chooses. -/
theorem bitFieldLawsHold : Obligations.BitFieldLawsHold := by
  intro n m v w p q
  refine ⟨insertBits_and_not_mask n m v, insertBits_and_mask n m v, ?_, ?_,
    insertBits_insertBits n m v w, insertBits_self n m, ?_, ?_, fun hne => ?_⟩
  · simp [insertBits, and_ones_byte]
  · simp [insertBits, and_ones_byte]
  · rw [extractBit_insertBits_bitMask, if_pos rfl]
    exact (BitVec.getLsbD_allOnes (v := 8)).trans (decide_eq_true (bitpos_lt_eight p))
  · rw [extractBit_insertBits_bitMask, if_pos rfl]
    simp
  · rw [extractBit_insertBits_bitMask, if_neg hne, extractBit_eq_getLsbD]

/-! ## The commands of FIN alone -/

/-- A command without a pin operand that names no bad register checks at most for an address (R148,
R206). -/
theorem firstError_of_noPin {i : Instr} (s : State) (hb : badRegisterOperand i = false)
    (hp : pinOperand i = none) :
    firstError i s = if issuesFrames i && !s.valid then some .NotInitialized else none := by
  simp [firstError, hb, hp]

/-- Settles O17: INSERT has nothing to check, and its FIN answers the inserter's byte. -/
theorem insertAnswersTheComposition : Obligations.InsertAnswersTheComposition := by
  refine ⟨fun n mask value => decode_encode (.insert n mask value), fun n mask value s hs => ?_⟩
  exact exec_fin (atMicroOp_idle hs) (firstError_of_noPin s rfl rfl) rfl

/-- Settles O18: the pin's check, and FIN with the bit the extractor returns. -/
theorem extractAnswersTheBit : Obligations.ExtractAnswersTheBit := by
  refine ⟨fun n p => decode_encode (.extract n p), fun n p s hs => ?_⟩
  rw [← extractorReturnsTheBit n p]
  exact exec_idle_fin_of_pinOperand hs rfl rfl rfl rfl

/-! ## A step of a command whose frame fails -/

section
variable {i : Instr} {s : State} {k : Nat} {r v : Byte} (h : AtMicroOp i k s)
  (he : firstError i s = none)
include h he

/-- An address frame of which nothing is accepted ends the command (R140, R141). -/
theorem exec_shortAddress (hop : (microOps i s.latchN)[k]? = some (.w1 r)) (ha : s.nextAccept 1 = 0) :
    exec i s = .next (s.afterShortAddress r) := by
  have hacc : (s.busyAt i k).nextAccept 1 = 0 := ha
  rw [exec_atMicroOp h he hop, microStep, hacc, if_pos Nat.zero_lt_one, State.addressFrame, hacc,
    State.busyAt_takeAccept]
  simp [State.afterShortAddress, State.busyAt, State.record, State.raise, State.deliver, State.addr]

/-- A read frame that times out ends the command (R140, R142). -/
theorem exec_timeout (hop : (microOps i s.latchN)[k]? = some (.rd r))
    (ht : s.readOutcome r = .timeout) :
    exec i s = .next { s.takeReply with
      seq := .idle
      response := some ⟨.TransportTimeout, 0x00#8⟩
      trace := s.trace ++ [.readFrame s.addr .timeout, .response .TransportTimeout 0x00#8] } := by
  have hout : (s.busyAt i k).readOutcome r = .timeout := ht
  rw [exec_atMicroOp h he hop, microStep, hout, State.readFrame, hout, State.busyAt_takeReply]
  simp [State.busyAt, State.record, State.raise, State.deliver, State.addr]

/-- A register-write frame accepted in part ends the command, and the device takes nothing (R143,
R144). -/
theorem exec_shortWrite (hop : (microOps i s.latchN)[k]? = some (.w2 r v)) (ha : s.nextAccept 2 < 2) :
    exec i s = .next (s.afterShortWrite r v (s.nextAccept 2)) := by
  have hacc : (s.busyAt i k).nextAccept 2 = s.nextAccept 2 := rfl
  rw [exec_atMicroOp h he hop, microStep, hacc, if_pos ha, State.valueFrame, hacc,
    if_neg (Nat.ne_of_lt ha), State.busyAt_takeAccept]
  simp [State.afterShortWrite, State.busyAt, State.record, State.raise, State.deliver, State.addr]
end

/-- An address frame leaves the outcome of the read frame after it as it was (R47). -/
theorem State.afterAddress_readOutcome (s : State) (i : Instr) (r : Byte) :
    (s.afterAddress i r).readOutcome r = s.readOutcome r :=
  (readOutcome_congr s.takeAccept _ r rfl rfl rfl rfl).trans (s.takeAccept_readOutcome r)

/-- The read frame that follows an accepted address frame, timed out (R142). -/
theorem exec_afterAddress_timeout {i : Instr} {s : State} {r : Byte} (he : firstError i s = none)
    (hop : (microOps i s.latchN)[1]? = some (.rd r)) (ht : s.readOutcome r = .timeout) :
    exec i (s.afterAddress i r) = .next (s.afterTimeout r) := by
  have hlatch : (s.afterAddress i r).latchN = s.latchN := s.takeAccept_latchN
  rw [exec_timeout (atMicroOp_busy rfl rfl) (by simpa using he) (by rwa [hlatch])
    ((s.afterAddress_readOutcome i r).trans ht)]
  cases hs : s.replies <;> simp [State.afterTimeout, State.afterAddress, State.takeReply, State.addr, hs]

/-! ## The frames of a register read and of a read-modify-write -/

/-- A command presented in IDLE that begins with W1 and RD reads the register (R140). -/
theorem readsRegister_of_microOps {i : Instr} {s : State} {r : Byte} (he : firstError i s = none)
    (hs : s.seq = .idle) (hop1 : (microOps i s.latchN)[0]? = some (.w1 r))
    (hop2 : (microOps i s.latchN)[1]? = some (.rd r)) : ReadsRegister i s r :=
  ⟨exec_shortAddress (atMicroOp_idle hs) he hop1, fun ha =>
    ⟨exec_address (atMicroOp_idle hs) he hop1 ha, exec_afterAddress_timeout he hop2,
      fun _ => exec_afterAddress he hop2⟩⟩

/-- A read-modify-write presented in IDLE reads its register and writes the composed byte back
(R130, R160). -/
theorem rmwCommand_of_rmwTarget {i : Instr} {s : State} {r mask value : Byte}
    (ht : rmwTarget i = some (r, mask, value)) (he : firstError i s = none) (hs : s.seq = .idle) :
    RmwCommand i s r mask value := by
  have hops := microOps_of_rmwTarget ht
  refine ⟨readsRegister_of_microOps he hs (by simp [hops]) (by simp [hops]), fun b _ _ => ?_⟩
  have hat : AtMicroOp i 2 (s.afterByte i r b) := atMicroOp_busy rfl rfl
  have hpass : firstError i (s.afterByte i r b) = none := by simpa using he
  have hw2 : (microOps i (s.afterByte i r b).latchN)[2]? = some (.w2 r (insertBits b mask value)) :=
    congrArg (·[2]?) (hops b)
  have hfin : (microOps i (s.afterByte i r b).latchN)[3]? = some (.fin 0x00#8) :=
    congrArg (·[3]?) (hops b)
  exact ⟨exec_shortWrite hat hpass hw2,
    fun ha => ⟨exec_write hat hpass hw2 ha, exec_afterWrite hpass hfin⟩⟩

/-! ## What a read-modify-write leaves in the register space -/

/-- Under Memory a byte read is the register's content (R49). -/
theorem State.eq_of_readOutcome_memory {s : State} {r b : Byte} (hm : s.params.deviceModel = .memory)
    (hb : s.readOutcome r = .byte b) : b = s.device.read r.toNat := by
  have hreply : s.nextReply ≠ .timeout := fun ht => by simp [readOutcome, ht] at hb
  exact ReadOutcome.byte.inj (hb.symm.trans (readOutcome_memory r hm hreply))

/-- After the read, the write of `v` stores it into the register space as it was before the read. -/
theorem State.device_afterByte_afterWrite (s : State) (i : Instr) (r b v : Byte) (k : Nat) :
    ((s.afterByte i r b).afterWrite i r v k).device = s.deviceAfter r v :=
  deviceAfter_congr (by simp [afterByte]) (by simp [afterByte]) r v

/-- R130: past the check of its register, SET_BITS checks for an address. -/
theorem firstError_setBits {r : Byte} (mask value : Byte) (s : State) (hr : inDef r = true) :
    firstError (.setBits r mask value) s = if s.valid then none else some .NotInitialized := by
  rw [firstError_of_noPin s (by simp [badRegisterOperand, hr]) rfl]
  cases s.valid <;> rfl

/-- Settles O22: the checks in their order, the frames of a read-modify-write, and the register read
back after the write. -/
theorem setBitsReadsThenWrites : Obligations.SetBitsReadsThenWrites := by
  refine ⟨fun r mask value => decode_encode (.setBits r mask value),
    fun r mask value s hs => ⟨fun hr => ?_, fun hr hv => ?_, fun hr hv => ?_, fun hm hw b hb => ?_⟩⟩
  · exact exec_idle_error hs (firstError_of_badRegisterOperand s (by simp [badRegisterOperand, hr]))
  · exact exec_idle_error hs (by simp [firstError_setBits, hr, hv])
  · exact rmwCommand_of_rmwTarget rfl (by simp [firstError_setBits, hr, hv]) hs
  · obtain rfl := State.eq_of_readOutcome_memory hm hb
    dsimp only
    rw [State.device_afterByte_afterWrite, State.read_deviceAfter_same r _ hm hw]

/-! ## The run of a read-modify-write -/

@[simp] theorem State.answered_device (s : State) (st : Status) (v : Byte) :
    (s.answered st v).device = s.device := rfl

theorem State.afterByte_nextAccept (s : State) (i : Instr) (r b : Byte) (len : Nat) :
    (s.afterByte i r b).nextAccept len = s.takeAccept.nextAccept len :=
  s.takeAccept.takeReply_nextAccept len

section
variable {i : Instr} {s : State} {r mask value b : Byte} (ht : rmwTarget i = some (r, mask, value))
  (he : firstError i s = none) (ha : s.agenda = []) (hacc2 : s.takeAccept.nextAccept 2 = 2)
include ht he ha hacc2

/-- The write of a read-modify-write right after its read. -/
theorem run_write_afterByte : Host.Core.run core 2 (s.afterByte i r b) =
    .next (((s.afterByte i r b).afterWrite i r (insertBits b mask value) 3).answered .OK 0x00#8) := by
  have hops := microOps_of_rmwTarget ht b
  have hturn : LeavesTurn (s.afterByte i r b).agenda (s.afterByte i r b).agenda :=
    .inl (by simp [State.afterByte, ha])
  exact run_register_write (congrArg (·[2]?) hops) (congrArg (·[3]?) hops)
    ((firstError_afterByte s i r b).trans he) rfl rfl hturn hturn
    ((s.afterByte_nextAccept i r b 2).trans hacc2)

/-- Four turns of RADBF run a read-modify-write whose frames succeed, and answer OK (R130). -/
theorem run_rmw {rest : List Word} (hs : s.seq = .idle) (hh : s.host = encode i :: rest)
    (hacc1 : s.nextAccept 1 = 1) (hb : s.readOutcome r = .byte b) :
    Host.Core.run core 4 s = .next (((State.afterByte { s with host := rest } i r b).afterWrite i r
      (insertBits b mask value) 3).answered .OK 0x00#8) := by
  have hops := microOps_of_rmwTarget ht s.latchN
  have hturn : LeavesTurn s.agenda s.agenda := .inl ⟨ha, ha⟩
  have hread := run_register_read (congrArg (·[0]?) hops) (congrArg (·[1]?) hops) he hs hh hturn
    hturn hacc1 hb
  refine (run_add (m := 2) hread).trans (run_write_afterByte ht he ha ?_)
  exact (State.nextAccept_congr s.takeAccept _ (by simp) (by simp) 2).trans hacc2
end

/-- Settles O54: what the run's one write leaves at the register, outside its mask, and elsewhere. -/
theorem readModifyWriteKeepsOtherBits : Obligations.ReadModifyWriteKeepsOtherBits := by
  intro s i r mask value rest ht he hs hm hw ha hh hacc1 hacc2 hreply
  have hrun := run_rmw ht he ha hacc2 hs hh hacc1 (State.readOutcome_memory r hm hreply)
  refine ⟨_, hrun, rfl, rfl, by simp [State.answered, State.afterWrite, State.afterByte], ?_⟩
  rw [State.answered_device, State.device_afterByte_afterWrite,
    State.deviceAfter_congr (s := s) (t := { s with host := rest }) rfl rfl,
    State.read_deviceAfter_same r _ hm hw]
  exact ⟨rfl, insertBits_and_not_mask _ mask value, fun a hne => State.read_deviceAfter_other r _ hne⟩

end Sys2Proof.Machine

/-! PROOFS. READ_REG and WRITE_REG (42_register_access.md): the frames and the FIN of a command that reads
or writes one register, with each transport failure (R140, R143), and the checks before them (R147,
R148). -/

namespace Sys2Proof.Machine

/-! ## The frames of a read command and of a write command -/

section
variable {i : Instr} {s : State} {r : Byte} (he : firstError i s = none) (hs : s.seq = .idle)
include he hs

/-- A command of W1, RD and FIN presented in IDLE: FIN sees the byte that RD latched (R140). -/
theorem readCommand_of_microOps {result : Byte → Byte}
    (hops : ∀ n, microOps i n = [.w1 r, .rd r, .fin (result n)]) : ReadCommand i s r result := by
  refine ⟨readsRegister_of_microOps he hs (by simp [hops]) (by simp [hops]), fun b _ _ => ?_⟩
  have hpass : firstError i (s.afterByte i r b) = none := by simpa using he
  have hfin : (microOps i (s.afterByte i r b).latchN)[2]? = some (.fin (result b)) :=
    congrArg (·[2]?) (hops b)
  exact exec_fin (atMicroOp_busy rfl rfl) hpass hfin

/-- A command of W2 and FIN presented in IDLE: one frame, accepted whole or not (R143). -/
theorem writeCommand_of_microOps {v : Byte}
    (hops : microOps i s.latchN = [.w2 r v, .fin 0x00#8]) : WriteCommand i s r v := by
  have hw2 : (microOps i s.latchN)[0]? = some (.w2 r v) := by simp [hops]
  have hfin : (microOps i s.latchN)[1]? = some (.fin 0x00#8) := by simp [hops]
  exact ⟨exec_shortWrite (atMicroOp_idle hs) he hw2,
    fun ha => ⟨exec_write (atMicroOp_idle hs) he hw2 ha, exec_afterWrite he hfin⟩⟩
end

/-! ## The checks of a register command -/

/-- A command without a pin operand that issues frames, presented in IDLE: its register is checked (R147),
then the address (R148), and `P` is what it does once both pass (R206). -/
theorem exec_idle_register {i : Instr} {s : State} {defined : Bool} {P : Prop} (hs : s.seq = .idle)
    (hb : badRegisterOperand i = !defined) (hp : pinOperand i = none) (hf : issuesFrames i = true)
    (hpass : firstError i s = none → P) :
    (defined = false → exec i s = .next (s.answered .InvalidRegister 0x00#8)) ∧
    (defined = true → s.valid = false → exec i s = .next (s.answered .NotInitialized 0x00#8)) ∧
    (defined = true → s.valid = true → P) := by
  have hinit (hd : defined = true) :
      firstError i s = if issuesFrames i && !s.valid then some .NotInitialized else none :=
    firstError_of_noPin s (by simp [hb, hd]) hp
  refine ⟨fun hd => ?_, fun hd hv => ?_, fun hd hv => ?_⟩
  · exact exec_idle_error hs (firstError_of_badRegisterOperand s (by simp [hb, hd]))
  · exact exec_idle_error hs ((hinit hd).trans (by simp [hf, hv]))
  · exact hpass ((hinit hd).trans (by simp [hv]))

/-! ## READ_REG and WRITE_REG -/

/-- Settles O20: the checks in their order, then W1, RD and FIN. -/
theorem readRegReadsTheRegister : Obligations.ReadRegReadsTheRegister :=
  ⟨fun r => decode_encode (.readReg r), fun _ _ hs =>
    exec_idle_register hs rfl rfl rfl fun he => readCommand_of_microOps he hs fun _ => rfl⟩

/-- Settles O21: the checks in their order, then W2 and FIN. -/
theorem writeRegWritesTheRegister : Obligations.WriteRegWritesTheRegister :=
  ⟨fun r v => decode_encode (.writeReg r v), fun _ _ _ hs =>
    exec_idle_register hs rfl rfl rfl fun he => writeCommand_of_microOps he hs rfl⟩

end Sys2Proof.Machine

/-! PROOFS. The pin and port commands (43_pin_port_api.md): the per-pin read-modify-writes (R160, R161, R163,
R167 to R169), DIGITAL_READ (R164), the port commands (R162, R165, R166), their equivalence to register
commands (R170), and the round trip of a level (R171). -/

namespace Sys2Proof.Machine

/-! ## The checks of a pin command and of a port command -/

section
variable {i : Instr} {p : Byte} {s : State} (hb : badRegisterOperand i = false)
  (hp : pinOperand i = some p)
include hb hp

/-- A pin above 15 is an error under PIN_CHECK, whatever else fails (R106, R206). -/
theorem firstError_of_badPin (hc : s.params.pinCheck = true) (hbad : p > 15#8) :
    firstError i s = some .InvalidPin := by
  simp [firstError, hb, hp, hc, (validPin_eq_false_iff p).mpr hbad]

/-- Past the check of its pin, a command that issues frames checks for an address (R148, R206). -/
theorem firstError_of_goodPin (hf : issuesFrames i = true)
    (hok : s.params.pinCheck = false ∨ p ≤ 15#8) :
    firstError i s = if s.valid then none else some .NotInitialized := by
  have hpin : (s.params.pinCheck && !validPin p) = false := by
    rcases hok with hc | hle
    · simp [hc]
    · simp [show validPin p = true from decide_eq_true hle]
  cases hv : s.valid <;> simp [firstError, hb, hp, hf, hv, hpin]
end

/-- A command that issues frames and names a pin, presented in IDLE: the pin is checked, then the address,
and `P` is what it does once both pass (R160, R164, R206). -/
theorem exec_idle_pin {i : Instr} {s : State} {p : Byte} {P : Prop} (hs : s.seq = .idle)
    (hb : badRegisterOperand i = false) (hp : pinOperand i = some p) (hf : issuesFrames i = true)
    (hpass : firstError i s = none → P) :
    (s.params.pinCheck = true → p > 15#8 → exec i s = .next (s.answered .InvalidPin 0x00#8)) ∧
    (s.params.pinCheck = false ∨ p ≤ 15#8 → s.valid = false →
      exec i s = .next (s.answered .NotInitialized 0x00#8)) ∧
    (s.params.pinCheck = false ∨ p ≤ 15#8 → s.valid = true → P) := by
  refine ⟨fun hc hbad => ?_, fun hok hv => ?_, fun hok hv => hpass ?_⟩
  · exact exec_idle_error hs (firstError_of_badPin hb hp hc hbad)
  · exact exec_idle_error hs ((firstError_of_goodPin hb hp hf hok).trans (by simp [hv]))
  · exact (firstError_of_goodPin hb hp hf hok).trans (by simp [hv])

/-- A port command presented in IDLE: the port is checked (R104), then the address, and `P` is what it does
once both pass (R162, R165, R166, R206). -/
theorem exec_idle_port {i : Instr} {s : State} {q : Byte} {P : Prop} (hs : s.seq = .idle)
    (hb : badRegisterOperand i = !validPort q) (hp : pinOperand i = none) (hf : issuesFrames i = true)
    (hpass : firstError i s = none → P) :
    (q ≠ 0x12#8 → q ≠ 0x13#8 → exec i s = .next (s.answered .InvalidRegister 0x00#8)) ∧
    (q = 0x12#8 ∨ q = 0x13#8 → s.valid = false →
      exec i s = .next (s.answered .NotInitialized 0x00#8)) ∧
    (q = 0x12#8 ∨ q = 0x13#8 → s.valid = true → P) := by
  obtain ⟨hbad, hinit, hok⟩ := exec_idle_register hs hb hp hf hpass
  refine ⟨fun hnotA hnotB => hbad ?_, fun hq => hinit ((validPort_iff q).mpr hq),
    fun hq => hok ((validPort_iff q).mpr hq)⟩
  exact Bool.eq_false_iff.mpr fun hv => ((validPort_iff q).mp hv).elim hnotA hnotB

/-! ## The per-pin read-modify-writes -/

/-- The five per-pin commands of R160 with their register's type index (R161, R163, R167 to R169). -/
def pinCommands (p b : Byte) : List (Instr × Nibble) :=
  [(.pinMode p b, 0#4), (.setPolarity p b, 1#4), (.setInterrupt p b, 2#4), (.setPullup p b, 6#4),
    (.digitalWrite p b, 9#4)]

/-- Command `i` sets or clears pin `p`, by the byte `b`, in the register pair `t` (R160). -/
structure SetsPin (i : Instr) (p b : Byte) (t : Nibble) : Prop where
  target : rmwTarget i = some (resolvePin p t, bitMask p, enableByte (boolOf b))
  pin : pinOperand i = some p
  noBadRegister : badRegisterOperand i = false
  frames : issuesFrames i = true
  pair : paired t = true

theorem setsPin_of_mem {p b : Byte} {c : Instr × Nibble} (h : c ∈ pinCommands p b) :
    SetsPin c.1 p b c.2 := by
  fin_cases h <;> exact ⟨rfl, rfl, rfl, rfl, rfl⟩

/-- R160, with `bool(b)` written out (R9). -/
theorem enableByte_boolOf (b : Byte) :
    enableByte (boolOf b) = if b = 0x00#8 then 0x00#8 else 0xFF#8 := by
  by_cases h : b = 0x00#8 <;> simp [enableByte, boolOf, h]

/-- Settles O23: the pin's check, the address's, and the read-modify-write of the pin's register. -/
theorem pinCommandsSetTheirBit : Obligations.PinCommandsSetTheirBit := by
  refine ⟨fun p b => ⟨decode_encode (.pinMode p b), decode_encode (.digitalWrite p b),
    decode_encode (.setPolarity p b), decode_encode (.setInterrupt p b),
    decode_encode (.setPullup p b)⟩, fun p b s hs c hc => ?_⟩
  obtain ⟨htarget, hpin, hbad, hframes, -⟩ := setsPin_of_mem hc
  rw [← halfBit_half, ← enableByte_boolOf]
  exact exec_idle_pin hs hbad hpin hframes fun he => rmwCommand_of_rmwTarget htarget he hs

/-! ## DIGITAL_READ -/

theorem resolvePin_gpio (p : Byte) :
    resolvePin p 9#4 = if p < 8#8 then 0x12#8 else 0x13#8 := by
  rw [resolvePin, halfBit_half]
  split <;> rfl

/-- Settles O25: the pin's check, the address's, then W1, RD and FIN with the bit the extractor returns. -/
theorem digitalReadAnswersTheBit : Obligations.DigitalReadAnswersTheBit := by
  refine ⟨fun p => decode_encode (.digitalRead p), fun p s hs => ?_⟩
  rw [← resolvePin_gpio]
  refine exec_idle_pin hs rfl rfl rfl fun he => readCommand_of_microOps he hs fun n => ?_
  rw [← extractorReturnsTheBit n p]
  rfl

/-! ## The port commands -/

/-- R105: the direction register of a port. -/
theorem resolvePortDirection_eq (q : Byte) :
    resolvePortDirection q = if q = 0x12#8 then 0x00#8 else 0x01#8 := by
  by_cases h : q = 0x12#8 <;> simp [resolvePortDirection, portHalf, portA, halfBit, catDirection, h]

/-- Settles O24: for either command the port's check, the address's, then W2 and FIN. -/
theorem portCommandsWriteWholeRegisters : Obligations.PortCommandsWriteWholeRegisters := by
  refine ⟨fun q v => ⟨decode_encode (.portMode q v), decode_encode (.portWrite q v)⟩,
    fun q v s hs => ?_⟩
  rw [← resolvePortDirection_eq, List.forall_mem_cons, List.forall_mem_singleton]
  constructor
  · exact exec_idle_port hs rfl rfl rfl fun he => writeCommand_of_microOps he hs rfl
  · exact exec_idle_port hs rfl rfl rfl fun he => writeCommand_of_microOps he hs rfl

/-- Settles O26: the port's check, the address's, then W1, RD and FIN. -/
theorem portReadAnswersTheByte : Obligations.PortReadAnswersTheByte :=
  ⟨fun q => decode_encode (.portRead q), fun _ _ hs =>
    exec_idle_port hs rfl rfl rfl fun he => readCommand_of_microOps he hs fun _ => rfl⟩

/-! ## The command word in progress is not looked at -/

section
variable (s : State)

@[simp] theorem State.forgetWord_latchN : s.forgetWord.latchN = s.latchN := by
  unfold forgetWord; split <;> rfl
@[simp] theorem State.forgetWord_params : s.forgetWord.params = s.params := by
  unfold forgetWord; split <;> rfl
@[simp] theorem State.forgetWord_valid : s.forgetWord.valid = s.valid := by
  unfold forgetWord; split <;> rfl
@[simp] theorem State.forgetWord_addr : s.forgetWord.addr = s.addr := by
  unfold forgetWord; split <;> rfl
@[simp] theorem State.forgetWord_nextAccept (len : Nat) :
    s.forgetWord.nextAccept len = s.nextAccept len := by unfold forgetWord; split <;> rfl
@[simp] theorem State.forgetWord_readOutcome (r : Byte) :
    s.forgetWord.readOutcome r = s.readOutcome r := by unfold forgetWord; split <;> rfl
@[simp] theorem State.forgetWord_microIndex : s.forgetWord.microIndex = s.microIndex := by
  cases hs : s.seq <;> simp [forgetWord, microIndex, hs]
@[simp] theorem frameFault_forgetWord (op : MicroOp) :
    frameFault op s.forgetWord = frameFault op s := by simp [frameFault]
@[simp] theorem firstError_forgetWord (i : Instr) : firstError i s.forgetWord = firstError i s :=
  firstError_congr i s _ (by simp) (by simp)

@[simp] theorem State.forgetWord_record (e : Event) :
    s.forgetWord.record e = (s.record e).forgetWord := by
  cases hs : s.seq <;> simp [forgetWord, record, hs]
@[simp] theorem State.forgetWord_deliver (st : Status) (v : Byte) :
    s.forgetWord.deliver st v = (s.deliver st v).forgetWord := by
  cases hs : s.seq <;> simp [forgetWord, deliver, record, hs]
@[simp] theorem State.forgetWord_setBusAddr (a : BusAddress) :
    s.forgetWord.setBusAddr a = (s.setBusAddr a).forgetWord := by
  cases hs : s.seq <;> simp [forgetWord, setBusAddr, hs]
@[simp] theorem State.forgetWord_advance : s.forgetWord.advance = s.advance.forgetWord := by
  cases hs : s.seq <;> simp [forgetWord, advance, hs]
@[simp] theorem State.forgetWord_setLatch (b : Byte) :
    s.forgetWord.setLatch b = (s.setLatch b).forgetWord := by
  cases hs : s.seq <;> simp [forgetWord, setLatch, hs]
@[simp] theorem State.forgetWord_takeAccept : s.forgetWord.takeAccept = s.takeAccept.forgetWord := by
  cases hs : s.seq <;> cases ha : s.acks <;> simp [forgetWord, takeAccept, hs, ha]
@[simp] theorem State.forgetWord_takeReply : s.forgetWord.takeReply = s.takeReply.forgetWord := by
  cases hs : s.seq <;> cases hr : s.replies <;> simp [forgetWord, takeReply, hs, hr]
@[simp] theorem State.forgetWord_deviceSet (r v : Byte) :
    s.forgetWord.deviceSet r v = (s.deviceSet r v).forgetWord := by
  cases hs : s.seq <;> cases hm : s.params.deviceModel <;> simp [forgetWord, deviceSet, hs, hm]
@[simp] theorem State.forgetWord_addressFrame (r : Byte) :
    s.forgetWord.addressFrame r = (s.addressFrame r).forgetWord := by simp [addressFrame]
@[simp] theorem State.forgetWord_readFrame (r : Byte) :
    s.forgetWord.readFrame r = (s.readFrame r).forgetWord := by simp [readFrame]
@[simp] theorem State.forgetWord_valueFrame (r v : Byte) :
    s.forgetWord.valueFrame r v = (s.valueFrame r v).forgetWord := by
  by_cases h : s.nextAccept 2 = 2 <;> simp [valueFrame, h]
@[simp] theorem State.forgetWord_begun (w : Word) :
    s.forgetWord.begun 0#32 = (s.begun w).forgetWord := by
  cases hs : s.seq <;> simp [forgetWord, begun, accept, hs]

/-- A read frame answered with a byte latches it, and the command goes on (R140). -/
theorem microStep_rd_byte {s : State} {r b : Byte} (h : s.readOutcome r = .byte b) :
    microStep (.rd r) s = ((s.readFrame r).setLatch b).advance := by
  simp only [microStep, h, State.setLatch]

/-- No micro-operation depends on the command word in progress. -/
theorem microStep_forgetWord (op : MicroOp) :
    microStep op s.forgetWord = (microStep op s).forgetWord := by
  cases op with
  | w1 r => by_cases hk : s.nextAccept 1 < 1 <;> simp [microStep, hk, State.raise]
  | rd r =>
    cases ho : s.readOutcome r with
    | timeout => simp [microStep, ho, State.raise]
    | byte b =>
      rw [microStep_rd_byte ho, microStep_rd_byte ((s.forgetWord_readOutcome r).trans ho)]
      simp
  | w2 r v => by_cases hk : s.nextAccept 2 < 2 <;> simp [microStep, hk, State.raise]
  | tinit => simp [microStep]
  | fin v => simp [microStep, State.respond]
  | finBegin a => simp [microStep, State.respond]

theorem runMicro_forgetWord (ops : List MicroOp) (k : Nat) :
    runMicro ops k s.forgetWord = mapNext State.forgetWord (runMicro ops k s) := by
  cases hop : ops[k]? with
  | none => simp [runMicro, hop, mapNext]
  | some op => cases hf : frameFault op s <;> simp [runMicro, hop, hf, mapNext, microStep_forgetWord]

/-- Forgetting the word after a step of a command is forgetting it before: what is left is the command's
checks and its list. -/
theorem exec_forgetWord (i : Instr) : mapNext State.forgetWord (exec i s) =
    runCommand 0#32 (firstError i s) (microOps i s.latchN) s.forgetWord := by
  rw [exec_eq_runCommand, runCommand_eq, runCommand_eq, State.forgetWord_microIndex,
    State.forgetWord_begun s (encode i)]
  split
  · cases he : firstError i s with
    | none => exact (runMicro_forgetWord _ _ 0).symm
    | some e => simp [startCommand, mapNext, State.raise]
  · exact (runMicro_forgetWord _ _ _).symm
end

/-! ## Commands with the same checks and the same list -/

/-- The two commands make the same checks and issue the same micro-operations; they differ in their word
alone (R170). -/
structure SameRun (i j : Instr) : Prop where
  checks : ∀ s, firstError i s = firstError j s
  ops : ∀ n, microOps i n = microOps j n

/-- After any number of steps of either command the states agree but for the word (R170). -/
theorem execTimes_of_sameRun {i j : Instr} (h : SameRun i j) (n : Nat) {s u : State}
    (hsu : s.forgetWord = u.forgetWord) :
    mapNext State.forgetWord (execTimes i n s) = mapNext State.forgetWord (execTimes j n u) := by
  induction n generalizing s u with
  | zero => exact congrArg Host.Outcome.next hsu
  | succ n ih =>
    have hstep : mapNext State.forgetWord (exec i s) = mapNext State.forgetWord (exec j u) := by
      rw [exec_forgetWord, exec_forgetWord, h.checks, h.ops, ← firstError_forgetWord s,
        ← s.forgetWord_latchN, hsu, firstError_forgetWord, State.forgetWord_latchN]
    rw [execTimes, execTimes]
    cases hs : exec i s <;> cases hu : exec j u <;>
      simp only [hs, hu, mapNext, Host.Outcome.next.injEq, reduceCtorEq] at hstep ⊢
    case next.next => exact ih hstep
    case fault.fault => exact hstep
    case refused.refused => exact hstep

/-- On a valid port the port command and the register command check for an address only (R104, R147). -/
theorem firstError_of_validPort {i j : Instr} {q : Byte} (hq : validPort q = true)
    (hi : badRegisterOperand i = !validPort q) (hj : badRegisterOperand j = !inDef q)
    (hpi : pinOperand i = none) (hpj : pinOperand j = none) (hf : issuesFrames i = issuesFrames j)
    (s : State) : firstError i s = firstError j s := by
  rw [firstError_of_noPin s (by simp [hi, hq]) hpi,
    firstError_of_noPin s (by simp [hj, inDef_of_validPort hq]) hpj, hf]

theorem sameRun_portWrite {q : Byte} (hq : validPort q = true) (v : Byte) :
    SameRun (.portWrite q v) (.writeReg q v) :=
  ⟨firstError_of_validPort hq rfl rfl rfl rfl rfl, fun _ => rfl⟩

theorem sameRun_portRead {q : Byte} (hq : validPort q = true) : SameRun (.portRead q) (.readReg q) :=
  ⟨firstError_of_validPort hq rfl rfl rfl rfl rfl, fun _ => rfl⟩

/-- On a valid pin a per-pin command checks for an address only, as SET_BITS does on the register the pin
resolves to (R108); both issue the frames of one read-modify-write. -/
theorem SetsPin.sameRun {i : Instr} {p b : Byte} {t : Nibble} (h : SetsPin i p b t) (hp : p ≤ 15#8) :
    SameRun i (.setBits (resolvePin p t) (bitMask p) (enableByte (boolOf b))) where
  checks s := by
    rw [firstError_of_goodPin h.noBadRegister h.pin h.frames (.inr hp),
      firstError_setBits _ _ s (inDef_resolvePin p h.pair)]
  ops n := by rw [microOps_of_rmwTarget h.target n, microOps_of_rmwTarget rfl n]

/-- Settles O53: in each pair the two commands make the same checks and issue the same micro-operations. -/
theorem pinAndPortCommandsIssueRegisterFrames : Obligations.PinAndPortCommandsIssueRegisterFrames := by
  refine fun n s _ => ⟨fun q v hq => ?_, fun p b hp c hc => ?_⟩
  · have hport := (validPort_iff q).mpr hq
    exact ⟨execTimes_of_sameRun (sameRun_portWrite hport v) n rfl,
      execTimes_of_sameRun (sameRun_portRead hport) n rfl⟩
  · rw [← enableByte_boolOf]
    exact execTimes_of_sameRun ((setsPin_of_mem hc).sameRun hp) n rfl

/-! ## The round trip of a level -/

/-- Three turns of RADBF run a command of W1, RD and FIN whose frames succeed (R140). -/
theorem run_read_command {i : Instr} {s : State} {r b : Byte} {result : Byte → Byte} {rest : List Word}
    (hops : ∀ n, microOps i n = [.w1 r, .rd r, .fin (result n)]) (he : firstError i s = none)
    (hs : s.seq = .idle) (hh : s.host = encode i :: rest) (ha : s.agenda = [])
    (hacc : s.nextAccept 1 = 1) (hb : s.readOutcome r = .byte b) :
    Host.Core.run core 3 s =
      .next ((State.afterByte { s with host := rest } i r b).answered .OK (result b)) := by
  have hturn : LeavesTurn s.agenda s.agenda := .inl ⟨ha, ha⟩
  have hread := run_register_read (by simp [hops]) (by simp [hops]) he hs hh hturn hturn hacc hb
  have hagenda : (State.afterByte { s with host := rest } i r b).agenda = [] := by
    simp [State.afterByte, ha]
  refine (run_add (m := 1) hread).trans (run_succ ?_ 0)
  rw [step_of_agenda_nil hagenda, sequencerTurn_busy rfl (decode_encode i)]
  exact (readCommand_of_microOps (s := { s with host := rest }) he hs hops).2 b hacc hb

/-- `u` is `s` after a read-modify-write that wrote `v` to `r`, every frame successful, with `rest` still to
be presented (R130): one read frame and two write frames have used up their draws. -/
structure WroteBack (s : State) (r v : Byte) (rest : List Word) (u : State) : Prop where
  idle : u.seq = .idle
  host : u.host = rest
  agenda : u.agenda = s.agenda
  params : u.params = s.params
  valid : u.valid = s.valid
  device : u.device = s.deviceAfter r v
  nextAccept : ∀ len, u.nextAccept len = s.takeAccept.takeAccept.nextAccept len
  nextReply : u.nextReply = s.takeReply.nextReply

theorem wroteBack_of_frames (s : State) (i : Instr) (r b v : Byte) (rest : List Word) :
    WroteBack s r v rest (((State.afterByte { s with host := rest } i r b).afterWrite i r v 3).answered
      .OK 0x00#8) where
  idle := rfl
  host := by simp [State.answered, State.afterWrite, State.afterByte]
  agenda := by simp [State.answered, State.afterWrite, State.afterByte]
  params := by simp [State.answered, State.afterWrite, State.afterByte]
  valid := by simp [State.answered, State.afterWrite, State.afterByte, State.valid]
  device := State.device_afterByte_afterWrite { s with host := rest } i r b v 3
  nextAccept := State.nextAccept_congr _ _
    (by simp [State.answered, State.afterWrite, State.afterByte])
    (by simp [State.answered, State.afterWrite, State.afterByte])
  nextReply := State.nextReply_congr _ _
    (by simp [State.answered, State.afterWrite, State.afterByte])
    (by simp [State.answered, State.afterWrite, State.afterByte])

/-- The run of a read-modify-write whose frames succeed (R130), by what it leaves. -/
theorem exists_run_wroteBack {i : Instr} {s : State} {r mask value b : Byte} {rest : List Word}
    (ht : rmwTarget i = some (r, mask, value)) (he : firstError i s = none) (hs : s.seq = .idle)
    (hh : s.host = encode i :: rest) (ha : s.agenda = []) (hacc1 : s.nextAccept 1 = 1)
    (hacc2 : s.takeAccept.nextAccept 2 = 2) (hb : s.readOutcome r = .byte b) :
    ∃ u, Host.Core.run core 4 s = .next u ∧ WroteBack s r (insertBits b mask value) rest u :=
  ⟨_, run_rmw ht he ha hacc2 hs hh hacc1 hb, wroteBack_of_frames s i r b _ rest⟩

/-- R122 (f), (g): the bit that a per-pin command inserts is the one that the extractor returns. -/
theorem extractBit_insertBits_enableByte (n p : Byte) (en : Bool) :
    extractBit (insertBits n (bitMask p) (enableByte en)) p = en := by
  obtain ⟨-, -, -, -, -, -, hset, hclear, -⟩ := bitFieldLawsHold n 0#8 0#8 0#8 p p
  cases en
  · exact hclear
  · exact hset

theorem b2byte_boolOf (b : Byte) : b2byte (boolOf b) = if b = 0x00#8 then 0x00#8 else 0x01#8 := by
  by_cases h : b = 0x00#8 <;> simp [b2byte, boolOf, h]

/-- Settles O56: DIGITAL_READ reads the byte that DIGITAL_WRITE composed, in which the pin's bit is the
level. -/
theorem digitalWriteThenReadRoundTrips : Obligations.DigitalWriteThenReadRoundTrips := by
  intro s p level rest hp hv hs hm hw ha hh hacc1 hacc2 hacc3 hreply hreply'
  have hpass {i : Instr} (u : State) (hb : badRegisterOperand i = false) (hi : pinOperand i = some p)
      (hf : issuesFrames i = true) (hu : u.valid = true) : firstError i u = none :=
    (firstError_of_goodPin hb hi hf (.inr hp)).trans (if_pos hu)
  obtain ⟨u, hwrite, hback⟩ := exists_run_wroteBack (i := .digitalWrite p level) rfl
    (hpass s rfl rfl rfl hv) hs hh ha hacc1 hacc2 (State.readOutcome_memory _ hm hreply)
  have hread := run_read_command (i := .digitalRead p) (fun _ => rfl)
    (hpass u rfl rfl rfl (hback.valid.trans hv)) hback.idle hback.host (hback.agenda.trans ha)
    ((hback.nextAccept 1).trans hacc3)
    (State.readOutcome_memory _ (hback.params ▸ hm) (by rwa [hback.nextReply]))
  refine ⟨_, (run_add (m := 3) hwrite).trans hread, rfl, ?_, ?_⟩
  · simp [State.answered, State.afterByte]
  · rw [hback.device, State.read_deviceAfter_same _ _ hm hw, extractBit_insertBits_enableByte,
      b2byte_boolOf]
    rfl

end Sys2Proof.Machine

/-! PROOFS. BEGIN (44_device_init.md): the bus address a selector gives (R190), and TINIT and FIN (R191). -/

namespace Sys2Proof.Machine

/-! ## The bus address -/

section
variable (sel : Byte)

/-- R190: the OR equals addition, since `0x20 & 0x07 = 0`. -/
theorem busAddress_eq_add : busAddress sel = Config.baseAddr + (sel &&& 0x07#8).setWidth 7 := by
  have hdisjoint : Config.baseAddr &&& (sel &&& 0x07#8).setWidth 7 = 0#7 := by
    rw [BitVec.setWidth_and, BitVec.and_comm (sel.setWidth 7), ← BitVec.and_assoc]
    exact BitVec.zero_and
  exact (BitVec.add_eq_or_of_and_eq_zero _ _ hdisjoint).symm

theorem toNat_and_seven : (sel &&& 0x07#8).toNat = sel.toNat % 8 :=
  Nat.and_two_pow_sub_one_eq_mod sel.toNat 3

theorem toNat_busAddress : (busAddress sel).toNat = 0x20 + sel.toNat % 8 := by
  rw [busAddress_eq_add, BitVec.toNat_add, BitVec.toNat_setWidth, toNat_and_seven]
  simp only [Config.baseAddr, BitVec.toNat_ofNat]
  omega

/-- BUSADDR of a valid bus address (R21, R190): VALID and the base are `0xA0`, under the selector's bits. -/
theorem validBusAddr_busAddress : validBusAddr (busAddress sel) = 0xA0#8 ||| (sel &&& 0x07#8) := by
  have hbits : ((sel &&& 0x07#8).setWidth 7).setWidth 8 = sel &&& 0x07#8 := by
    apply BitVec.eq_of_toNat_eq
    simp only [BitVec.toNat_setWidth, toNat_and_seven]
    omega
  rw [validBusAddr, busAddress, BitVec.setWidth_or, hbits, ← BitVec.or_assoc]
  rfl
end

/-- Settles O14: the sum, the range it lies in, and a second masking, which finds nothing to clear. -/
theorem busAddressKeepsThreeSelectorBits : Obligations.BusAddressKeepsThreeSelectorBits := by
  refine fun sel => ⟨toNat_busAddress sel, legalBusAddress_busAddress sel, ?_⟩
  rw [busAddress, busAddress, BitVec.and_assoc, BitVec.and_self]

/-! ## TINIT and BEGIN's FIN -/

section
variable {i : Instr} {s : State} {k : Nat} (h : AtMicroOp i k s) (he : firstError i s = none)
include h he

/-- TINIT is recorded and the command goes on; it has no failure outcome (R191). -/
theorem exec_tinit (hop : (microOps i s.latchN)[k]? = some .tinit) :
    exec i s = .next { s with
      seq := .busy (encode i) (k + 1)
      response := none
      trace := s.trace ++ [.tinit] } := by
  rw [exec_atMicroOp h he hop]
  rfl

/-- BEGIN's FIN sets BUSADDR and responds (R27, R191). -/
theorem exec_finBegin {a : BusAddress} (hop : (microOps i s.latchN)[k]? = some (.finBegin a)) :
    exec i s = .next ((s.setBusAddr a).answered .OK 0x00#8) := by
  rw [exec_atMicroOp h he hop]
  rfl
end

/-- BEGIN has nothing to check: no operand, and no earlier BEGIN (R191). -/
theorem firstError_beginBus (sel : Byte) (s : State) : firstError (.beginBus sel) s = none :=
  firstError_of_noPin s rfl rfl

/-- Settles O19: TINIT from IDLE, then BEGIN's FIN, which leaves the address it set. -/
theorem beginSetsTheBusAddress : Obligations.BeginSetsTheBusAddress := by
  refine ⟨fun sel => decode_encode (.beginBus sel), fun sel s hs => ?_⟩
  rw [← validBusAddr_busAddress]
  refine ⟨⟨_, exec_tinit (atMicroOp_idle hs) (firstError_beginBus sel s) rfl, rfl, rfl, ?_⟩,
    State.setBusAddr_valid s (busAddress sel), State.setBusAddr_addr s (busAddress sel)⟩
  rw [exec_finBegin (atMicroOp_busy rfl rfl) (firstError_beginBus sel _) rfl]
  simp [State.answered, State.setBusAddr]

end Sys2Proof.Machine

/-! PROOFS. Statuses and errors (60_exceptions.md): the codes (R201), the checks of a command in their order
(R202, R204, R206), the end of a command at a failing frame (R205), and that no step stops RADBF (R203). -/

namespace Sys2Proof.Machine

/-! ## The codes of the statuses -/

theorem Status.code_ne_seven (st : Status) : st.code ≠ 7#3 := by
  cases st <;> decide

theorem Status.ofCode_code (st : Status) : Status.ofCode st.code = some st := by
  cases st <;> rfl

/-- Settles O29. -/
theorem statusCodesAreTheTable : Obligations.StatusCodesAreTheTable :=
  ⟨rfl, rfl, rfl, rfl, rfl, rfl, rfl, fun st => ⟨st.code_ne_seven, st.ofCode_code⟩, rfl⟩

/-! ## The checks of a command -/

/-- Past the operand checks, a command that issues frames needs an address (R148, R206). -/
theorem firstError_of_noAddress {i : Instr} {s : State} (hb : badRegisterOperand i = false)
    (hok : s.params.pinCheck = false ∨ ∀ p, pinOperand i = some p → p ≤ 15#8)
    (hf : issuesFrames i = true) (hv : s.valid = false) : firstError i s = some .NotInitialized := by
  cases hp : pinOperand i with
  | none => simp [firstError_of_noPin s hb hp, hf, hv]
  | some p =>
    have hpin : s.params.pinCheck = false ∨ p ≤ 15#8 := hok.imp_right fun hle => hle p hp
    simp [firstError_of_goodPin hb hp hf hpin, hv]

/-- Settles O30: each clause names the first check that fails. -/
theorem failedChecksAnswerInOrder : Obligations.FailedChecksAnswerInOrder := by
  intro i s hs
  refine ⟨fun hb => ?_, fun hb hc p hp hbad => ?_, fun hb hok hf hv => ?_⟩
  · exact exec_idle_error hs (firstError_of_badRegisterOperand s hb)
  · exact exec_idle_error hs (firstError_of_badPin hb hp hc hbad)
  · exact exec_idle_error hs (firstError_of_noAddress hb hok hf hv)

/-- A well-formed command is one that passes the operand checks of R206 under PIN_CHECK. -/
theorem wellFormed_eq (i : Instr) :
    i.wellFormed = (!badRegisterOperand i && !(pinOperand i).any fun p => !validPin p) := by
  cases i <;> simp [Instr.wellFormed, badRegisterOperand, pinOperand]

section
variable {i : Instr} {s : State}

/-- All a well-formed command can lack is an address (R148). -/
theorem firstError_of_wellFormed (hw : i.wellFormed = true) :
    firstError i s = if issuesFrames i && !s.valid then some .NotInitialized else none := by
  rw [wellFormed_eq, Bool.and_eq_true, Bool.not_eq_true', Bool.not_eq_true'] at hw
  obtain ⟨hb, hp⟩ := hw
  simp [firstError, hb, hp]

/-- An ill-formed command fails an operand check under PIN_CHECK (R202). -/
theorem firstError_of_illFormed (hw : i.wellFormed = false) (hc : s.params.pinCheck = true) :
    firstError i s = some .InvalidPin ∨ firstError i s = some .InvalidRegister := by
  cases hb : badRegisterOperand i with
  | true => exact .inr (firstError_of_badRegisterOperand s hb)
  | false =>
    have hp : (pinOperand i).any (fun p => !validPin p) = true := by
      simpa [wellFormed_eq, hb] using hw
    exact .inl (by simp [firstError, hb, hc, hp])

/-- The checks of a command raise no transport error (R202). -/
theorem firstError_not_transport {e : Status} (he : firstError i s = some e) :
    e ≠ .TransportWriteShortfall ∧ e ≠ .TransportTimeout := by
  unfold firstError at he
  repeat' split at he
  all_goals cases he
  all_goals exact ⟨nofun, nofun⟩
end

/-! ## A frame that fails -/

section
variable {op : MicroOp} {s : State} {st : Status} (h : op.error? s = some st)
include h

/-- The ways a frame fails: an address frame or a register-write frame not accepted whole (R141, R144), or a
read frame that times out (R142). -/
theorem MicroOp.error_cases :
    (∃ r, op = .w1 r ∧ s.nextAccept 1 < 1 ∧ st = .TransportWriteShortfall) ∨
    (∃ r v, op = .w2 r v ∧ s.nextAccept 2 < 2 ∧ st = .TransportWriteShortfall) ∨
    (∃ r, op = .rd r ∧ s.readOutcome r = .timeout ∧ st = .TransportTimeout) := by
  cases op with
  | w1 r => exact .inl ⟨r, rfl, by simpa [error?, eq_comm] using h⟩
  | w2 r v => exact .inr (.inl ⟨r, v, rfl, by simpa [error?, eq_comm] using h⟩)
  | rd r =>
    cases ho : s.readOutcome r with
    | timeout => exact .inr (.inr ⟨r, rfl, ho, by simpa [error?, ho, eq_comm] using h⟩)
    | byte b => simp [error?, ho] at h
  | tinit => cases h
  | fin v => cases h
  | finBegin a => cases h

/-- What a failing frame records of itself (R46, R47). -/
theorem MicroOp.event_of_error :
    (∃ bytes k, op.event s = .writeFrame s.addr bytes k ∧ k < bytes.length ∧
      st = .TransportWriteShortfall) ∨
    (op.event s = .readFrame s.addr .timeout ∧ st = .TransportTimeout) := by
  rcases error_cases h with ⟨r, rfl, hlt, rfl⟩ | ⟨r, v, rfl, hlt, rfl⟩ | ⟨r, rfl, ho, rfl⟩
  · exact .inl ⟨[r], _, rfl, hlt, rfl⟩
  · exact .inl ⟨[r, v], _, rfl, hlt, rfl⟩
  · exact .inr ⟨by rw [event, ho], rfl⟩

/-- The transport's errors are not those of the operand checks (R202). -/
theorem MicroOp.error_not_operand : st ≠ .InvalidPin ∧ st ≠ .InvalidRegister := by
  rcases error_cases h with ⟨r, -, -, rfl⟩ | ⟨r, v, -, -, rfl⟩ | ⟨r, -, -, rfl⟩ <;>
    exact ⟨nofun, nofun⟩

/-- A failing frame ends the command with its error and changes no register (R200, R205, D21). -/
theorem microStep_of_error : (microStep op s).seq = .idle ∧
    (microStep op s).response = some ⟨st, 0x00#8⟩ ∧ (microStep op s).device = s.device ∧
    (microStep op s).busAddr = s.busAddr ∧ (microStep op s).latchN = s.latchN := by
  rcases MicroOp.error_cases h with ⟨r, rfl, hlt, rfl⟩ | ⟨r, v, rfl, hlt, rfl⟩ | ⟨r, rfl, ho, rfl⟩
  · rw [microStep, if_pos hlt]
    simp [State.raise]
  · rw [microStep, if_pos hlt]
    simp [State.raise, State.valueFrame_device, hlt.ne]
  · simp [microStep, ho, State.raise]
end

/-- A response a micro-operation records is OK, or its frame's error (R27). -/
theorem response_mem_events {op : MicroOp} {s : State} {st : Status} {v : Byte}
    (h : Event.response st v ∈ op.events s) : st = .OK ∨ op.error? s = some st := by
  rcases mem_events h with he | ⟨e, herr, he⟩
  · left
    cases op <;> cases he <;> rfl
  · cases he
    exact .inr herr

/-- Settles O32: the checks raise no transport error, so the response is that of a frame that failed. -/
theorem transportErrorsEndTheCommand : Obligations.TransportErrorsEndTheCommand := by
  intro i s t added st v h ht hmem hst
  rcases exec_cases h with ⟨-, e, he, rfl⟩ | ⟨op, -, -, -, rfl⟩
  · obtain ⟨hshort, htime⟩ := firstError_not_transport he
    obtain rfl : [Event.response e 0x00#8] = added := by simpa [State.raise] using ht
    obtain ⟨rfl, -⟩ : st = e ∧ v = 0x00#8 := by simpa using hmem
    exact (hst.elim hshort htime).elim
  · obtain rfl : op.events (s.begun (encode i)) = added := by
      simpa [microStep_trace_eq] using ht
    have herr : op.error? (s.begun (encode i)) = some st :=
      (response_mem_events hmem).resolve_left (by rintro rfl; simp at hst)
    refine ⟨⟨op.event (s.begun (encode i)), by simp [MicroOp.events, herr], ?_⟩, ?_⟩
    · simpa using MicroOp.event_of_error herr
    · simpa using microStep_of_error herr

/-! ## The responses of a command's steps -/

/-- A micro-operation answers with no error of the operand checks (R202). -/
theorem response_not_operand {op : MicroOp} {s : State} {st : Status} {v : Byte}
    (h : Event.response st v ∈ op.events s) : st ≠ .InvalidPin ∧ st ≠ .InvalidRegister := by
  rcases response_mem_events h with rfl | herr
  · exact ⟨nofun, nofun⟩
  · exact MicroOp.error_not_operand herr

/-- A response that pends after a micro-operation pended before it or is one it recorded (R27). -/
theorem microStep_pending {op : MicroOp} {s : State} {r : Response}
    (h : (microStep op s).response = some r) :
    s.response = some r ∨ .response r.status r.result ∈ op.events s := by
  cases herr : op.error? s with
  | some st =>
    obtain ⟨-, hresp, -⟩ := microStep_of_error herr
    obtain rfl : ⟨st, 0x00#8⟩ = r := Option.some.inj (hresp.symm.trans h)
    exact .inr (by simp [MicroOp.events, herr])
  | none =>
    cases op with
    | w1 r =>
      have hacc : ¬ s.nextAccept 1 < 1 := by simpa [MicroOp.error?] using herr
      rw [microStep, if_neg hacc] at h
      exact .inl (by simpa using h)
    | w2 r v =>
      have hacc : ¬ s.nextAccept 2 < 2 := by simpa [MicroOp.error?] using herr
      rw [microStep, if_neg hacc] at h
      exact .inl (by simpa using h)
    | rd r =>
      cases ho : s.readOutcome r with
      | timeout => simp [MicroOp.error?, ho] at herr
      | byte b => exact .inl (by simpa [microStep, ho] using h)
    | tinit => exact .inl (by simpa [microStep] using h)
    | fin v =>
      cases h
      exact .inr (List.mem_singleton_self _)
    | finBegin a =>
      cases h
      exact .inr (List.mem_singleton_self _)

/-- A step of a command records its responses: one that pends afterwards pended while it ran or is among
them (R27). -/
theorem exec_pending {i : Instr} {s t : State} (h : exec i s = .next t) {added : List Event}
    (ht : t.trace = s.trace ++ added) {r : Response} (hr : t.response = some r) :
    (s.begun (encode i)).response = some r ∨ .response r.status r.result ∈ added := by
  rcases exec_cases h with ⟨-, e, -, rfl⟩ | ⟨op, -, -, -, rfl⟩
  · obtain rfl : [Event.response e 0x00#8] = added := by simpa [State.raise] using ht
    cases hr
    exact .inr (List.mem_singleton_self _)
  · obtain rfl : op.events (s.begun (encode i)) = added := by
      simpa [microStep_trace_eq] using ht
    exact microStep_pending hr

/-- No step of a well-formed command records the error of an operand check: its checks can
miss the address alone, and no micro-operation raises one (R202). -/
theorem exec_of_wellFormed {i : Instr} {s t : State} (h : exec i s = .next t)
    (hw : i.wellFormed = true) : ∃ added, t.trace = s.trace ++ added ∧
      ∀ v, Event.response .InvalidPin v ∉ added ∧ Event.response .InvalidRegister v ∉ added := by
  rcases exec_cases h with ⟨-, e, he, rfl⟩ | ⟨op, -, -, -, rfl⟩
  · rw [firstError_of_wellFormed hw] at he
    obtain ⟨-, he⟩ := Option.ite_none_right_eq_some.mp he
    cases he
    exact ⟨[.response .NotInitialized 0x00#8], by simp [State.raise], fun v => by simp⟩
  · exact ⟨op.events (s.begun (encode i)), by simp [microStep_trace_eq], fun v =>
      ⟨fun hm => (response_not_operand hm).1 rfl, fun hm => (response_not_operand hm).2 rfl⟩⟩

/-- Settles O33: a response that pends after the first step is one it recorded, since accepting the command
leaves none; and an ill-formed command's first step is its failed check. -/
theorem illFormedOperandsAreAnswered : Obligations.IllFormedOperandsAreAnswered := by
  intro i s t h
  refine ⟨exec_of_wellFormed h, fun hs hw v => ?_, fun hs hw hc => ?_⟩
  · obtain ⟨added, ht, hno⟩ := exec_of_wellFormed h hw
    have hrecorded {r : Response} (hr : t.response = some r) :
        .response r.status r.result ∈ added :=
      (exec_pending h ht hr).resolve_left (by simp [State.begun_idle hs])
    exact ⟨fun hr => (hno v).1 (hrecorded hr), fun hr => (hno v).2 (hrecorded hr)⟩
  · have hanswer {e : Status} (he : firstError i s = some e) : t = s.answered e 0x00#8 := by
      rw [exec_idle_error hs he] at h
      exact (Host.Outcome.next.inj h).symm
    exact (firstError_of_illFormed hw hc).imp hanswer hanswer

/-! ## Every step has a next state -/

/-- RADBF's turn has a next state: a command presented is at its first micro-operation once accepted, and one
in progress has a micro-operation left (R203). -/
theorem Inv.exists_sequencerTurn {s : State} (h : Inv s) : ∃ t, Machine.sequencerTurn s = .next t := by
  cases hs : s.seq with
  | idle =>
    cases hh : s.host with
    | nil => exact ⟨s, sequencerTurn_idle_nil hs hh⟩
    | cons w rest =>
      cases hd : decode w with
      | illegal reason => exact ⟨_, sequencerTurn_idle_illegal hs hh hd⟩
      | command i =>
        have haccepted : Inv (State.accept { s with host := rest } (encode i)) :=
          (h.withLists s.agenda rest).accept i
        obtain ⟨t, ht, -⟩ := exec_answers_or_advances haccepted rfl (decode_encode i)
        refine ⟨t, ?_⟩
        rw [sequencerTurn_idle hs hh hd, exec_of_idle i (s := { s with host := rest }) hs]
        exact ht
  | busy w k =>
    cases hd : decode w with
    | illegal reason => exact ⟨_, sequencerTurn_busy_illegal hs hd⟩
    | command i =>
      obtain ⟨t, ht, -⟩ := exec_answers_or_advances h hs hd
      exact ⟨t, (sequencerTurn_busy hs hd).trans ht⟩

/-- Settles O48, by the agent that moves: only RADBF's turn could stop. -/
theorem radbfNeverStops : Obligations.RadbfNeverStops := by
  intro s h
  cases ha : s.agenda with
  | nil =>
    rw [step_of_agenda_nil ha]
    exact h.exists_sequencerTurn
  | cons turn turns =>
    cases turn with
    | radbf =>
      rw [step_of_agenda_radbf ha]
      exact (h.withLists turns s.host).exists_sequencerTurn
    | reset => exact ⟨_, step_of_agenda_reset ha⟩
    | interfere g v =>
      rw [step_of_agenda_interfere ha]
      split
      · exact h.exists_sequencerTurn
      · exact ⟨_, rfl⟩

end Sys2Proof.Machine

/-! PROOFS. Waiting and reset (70_reset_and_hazards.md): RADBF's turn with nothing to do (R231), and what a
reset sets and leaves alone (R230). -/

namespace Sys2Proof.Machine

/-- Settles O39: with the agenda empty or a turn of it, the step is RADBF's turn, which waits. -/
theorem idleWaitsForTheHost : Obligations.IdleWaitsForTheHost := by
  intro s hs hh
  refine ⟨fun ha => ?_, fun turns ha => ?_⟩
  · rw [step_of_agenda_nil ha, sequencerTurn_idle_nil hs hh]
  · rw [step_of_agenda_radbf ha]
    exact sequencerTurn_idle_nil (s := { s with agenda := turns }) hs hh

section
variable (s : State)

@[simp] theorem State.applyReset_seq : s.applyReset.seq = .idle := rfl
@[simp] theorem State.applyReset_response : s.applyReset.response = none := rfl
@[simp] theorem State.applyReset_trace : s.applyReset.trace = s.trace ++ [.reset] := rfl

/-- The registers a reset sets and its event in the record are all that a reset changes (R230). -/
theorem State.applyReset_others : s.applyReset = { s with
    busAddr := s.applyReset.busAddr
    seq := s.applyReset.seq
    latchN := s.applyReset.latchN
    response := s.applyReset.response
    trace := s.applyReset.trace } := rfl
end

/-- Settles O41: the step is the reset, which sets RADBF's own registers, records itself and changes nothing
else. -/
theorem resetAbandonsTheCommand : Obligations.ResetAbandonsTheCommand := by
  intro s turns ha
  refine ⟨_, step_of_agenda_reset ha, State.applyReset_valid _, State.applyReset_seq _,
    State.applyReset_response _, ?_⟩
  rw [State.applyReset_others]
  simp

end Sys2Proof.Machine
